-- ==== Sys2Proof/Word.lean ====
section
/-!
DEFINITION. The words of the SKD-192 and the index types of its replicated units (R6, R7).

What the manual treats as bits is a bit vector; a number of a unit is a `Fin`; addresses used as keys are `Nat`.
-/

namespace Sys2Proof

/-- A byte of memory. -/
abbrev Byte := BitVec 8
/-- A cell or a 32-bit register (R258). -/
abbrev Word := BitVec 32
/-- A double cell or a 64-bit register (R259). -/
abbrev DWord := BitVec 64
/-- A figure microword (R106). -/
abbrev MicroWord := BitVec 128

/-- A global engine number, `16 × tile + engine` (R6). -/
abbrev Eng := Fin 192
/-- A tile, T0 to T11 (R6). -/
abbrev Tile := Fin 12
/-- A reel port, REEL0 to REEL7 (R7). -/
abbrev Reel := Fin 8
/-- A relay port, RLY0 to RLY3 (R7). -/
abbrev Port := Fin 4
/-- An encoder input, ENC0 to ENC3 (R7). -/
abbrev Enc := Fin 4

/-- Sparse data by key: a list of key and value pairs, keys strictly rising. A key that is not listed has the value
that the reader of the map names. -/
abbrev Map (α : Type) := List (Nat × α)

end Sys2Proof
end

