-- ==== Sys2Proof/Syntax.lean ====
section
/-!
DEFINITION. The commands of the block: one constructor per row of the table of operations and events.

An instruction row names the engine that issues it and its operand bytes. A row that is a register access names its
initiator and its data. A row that is an event names the unit it comes to and what arrives at the unit's inputs.
-/

namespace Sys2Proof

/-- Who issues an access to the shared map (R22, R181, R663, R641). -/
inductive Initiator where
  /-- an engine, by its global number -/
  | engine (g : Eng)
  /-- the host target port -/
  | host
  /-- the debug master -/
  | debug
  /-- the boot sequencer (R620) -/
  | boot
  /-- the relay hub, for inbound letters (R530) -/
  | relay
  /-- the figure unit of a tile (R130) -/
  | fig (t : Tile)
  deriving DecidableEq, Repr

/-- A commit group with a shadow copy (R47). -/
inductive Group where
  /-- cycle period and slot map of a reel -/
  | reel (n : Reel)
  /-- format pairs of a tile's figure unit -/
  | figFmt (t : Tile)
  /-- margin pair of a tile -/
  | margin (t : Tile)
  /-- relay route table -/
  | route
  deriving DecidableEq, Repr

/-- The displacement of a branch and the length that it gives the instruction (R284). -/
inductive Disp where
  /-- one displacement byte, 2 bytes in all -/
  | rel8 (d : BitVec 8)
  /-- two displacement bytes, 3 bytes in all -/
  | rel16 (d : BitVec 16)
  /-- four displacement bytes, 5 bytes in all -/
  | rel32 (d : BitVec 32)
  deriving DecidableEq, Repr

/-- What starts a reel cycle (R224): the clock, or a forward crossing of the trigger angle. -/
inductive CycleCause where
  /-- PER × 10 ns have passed in time mode, or the cycle clock of a reel that is not cycling -/
  | time
  /-- the trigger of angle mode, at once or when the wait of R226 is over -/
  | trigger
  deriving DecidableEq, Repr

/-- A node descriptor of an addressing pass, its four words (R205). -/
structure NodeDesc where
  /-- TYPE, NREV and LEVEL -/
  w0 : Word
  /-- NCH and SLEN -/
  w1 : Word
  /-- NDLY -/
  w2 : Word
  /-- SERIAL -/
  w3 : Word
  deriving DecidableEq, Repr

/-- How a returned slot arrives (R221): its CRC, its slot header bits and its payload. -/
structure SlotReturn where
  /-- position in the slot header -/
  pos : Fin 64
  /-- the CRC is good -/
  crcGood : Bool
  /-- RVALID of the slot header -/
  rvalid : Bool
  /-- INBAD of the slot header -/
  inbad : Bool
  /-- the payload bytes, lowest address first -/
  payload : List Byte
  deriving DecidableEq, Repr

/-- The level at an encoder input, and the FBCLK cycles for which it has held (R55). -/
structure Pin where
  high : Bool
  held : BitVec 8
  deriving DecidableEq, Repr

/-- A training of a relay port that is out of time: the partner's postcode, when step 1 has come, and the exchanges of
step 2, each with its turnaround in 2 ns units and its round trip in ns (R508, R510). -/
structure Training where
  port : Port
  peer : Option (BitVec 12)
  rounds : List (BitVec 8 × BitVec 16)
  deriving DecidableEq, Repr

/-- A PING: its sequence number, and the turnaround of this block to its PONG in 2 ns units (R508, R535). -/
structure Ping where
  seq : BitVec 8
  turn : BitVec 8
  deriving DecidableEq, Repr

/-- What a margin check measures (R595, R596, R597, R598). -/
structure CheckData where
  /-- temperature, signed degrees Celsius -/
  temp : BitVec 8
  /-- stressed oscillator count per 10 µs, divided by 256 -/
  fstr : BitVec 16
  /-- fresh oscillator count, likewise -/
  ffresh : BitVec 16
  /-- smallest failing sense step, 15 when none fails -/
  mmin : BitVec 4
  /-- FMAX at the even codes 0, 2, ..., 50, in order -/
  fmax : List Byte
  /-- largest passing delay step of the four canaries at the active pair -/
  slack : List (BitVec 5)
  deriving DecidableEq, Repr

/-- What the flash answers to the SFDP reads (R614). -/
structure Sfdp where
  /-- the signature and a Basic Flash Parameter Table are present -/
  good : Bool
  /-- density in bytes -/
  bytes : Word
  /-- an xSPI Profile 1.0 table is present -/
  xspi : Bool
  deriving DecidableEq, Repr

/-- An answer of the external memory to a request (R672). -/
inductive MemCode where
  /-- code 0 -/
  | ok
  /-- codes 1 to 3 -/
  | err
  deriving DecidableEq, Repr

/-- The commands, one constructor per row of the table of operations and events. -/
inductive Instr where
  -- literals (R268)
  | slit (g : Eng) (n : BitVec 5)
  | lit8 (g : Eng) (b : BitVec 8)
  | lit8u (g : Eng) (b : BitVec 8)
  | lit16 (g : Eng) (h : BitVec 16)
  | lit16u (g : Eng) (h : BitVec 16)
  | lit32 (g : Eng) (w : BitVec 32)
  -- stack (R267)
  | dup (g : Eng)
  | drop (g : Eng)
  | swap (g : Eng)
  | over (g : Eng)
  | rot (g : Eng)
  | nip (g : Eng)
  | tuck (g : Eng)
  | pick (g : Eng) (k : BitVec 8)
  | twoDup (g : Eng)
  | twoDrop (g : Eng)
  | twoSwap (g : Eng)
  | twoOver (g : Eng)
  | toR (g : Eng)
  | rFrom (g : Eng)
  | rFetch (g : Eng)
  | rdrop (g : Eng)
  -- logical and shift (R269, R270)
  | and (g : Eng)
  | or (g : Eng)
  | xor (g : Eng)
  | not (g : Eng)
  | shl (g : Eng)
  | shr (g : Eng)
  | sar (g : Eng)
  | rol (g : Eng)
  | ror (g : Eng)
  | shli (g : Eng) (k : BitVec 8)
  | shri (g : Eng) (k : BitVec 8)
  | sari (g : Eng) (k : BitVec 8)
  | clz (g : Eng)
  | popc (g : Eng)
  | bswap (g : Eng)
  | brev (g : Eng)
  -- integer (R271)
  | add (g : Eng)
  | sub (g : Eng)
  | neg (g : Eng)
  | abs (g : Eng)
  | inc (g : Eng)
  | dec (g : Eng)
  | addi (g : Eng) (b : BitVec 8)
  | min (g : Eng)
  | max (g : Eng)
  | umin (g : Eng)
  | umax (g : Eng)
  | eq (g : Eng)
  | lt (g : Eng)
  | ult (g : Eng)
  | zeq (g : Eng)
  | sext (g : Eng) (k : BitVec 8)
  -- carry and double cell (R272)
  | adc (g : Eng)
  | sbb (g : Eng)
  | dadd (g : Eng)
  | dsub (g : Eng)
  | dneg (g : Eng)
  | dshl (g : Eng)
  | dshr (g : Eng)
  | dsar (g : Eng)
  | sToD (g : Eng)
  | dToS (g : Eng)
  | clc (g : Eng)
  | setc (g : Eng)
  | getc (g : Eng)
  | dlt (g : Eng)
  | dult (g : Eng)
  -- multiply and divide (R273, R275)
  | mul (g : Eng)
  | umul (g : Eng)
  | mulw (g : Eng)
  | umulw (g : Eng)
  | div (g : Eng)
  | udiv (g : Eng)
  | mod (g : Eng)
  | umod (g : Eng)
  | divmod (g : Eng)
  | udivmod (g : Eng)
  | udivw (g : Eng)
  | divw (g : Eng)
  -- fixed point (R277)
  | qadd (g : Eng)
  | qsub (g : Eng)
  | qmul (g : Eng)
  | qmulr (g : Eng)
  | qaddl (g : Eng)
  | qsubl (g : Eng)
  | qmull (g : Eng)
  | qmullr (g : Eng)
  | qneg (g : Eng)
  | qabs (g : Eng)
  | qnegl (g : Eng)
  | qabsl (g : Eng)
  | sath (g : Eng)
  | qshl (g : Eng)
  | qrshr (g : Eng)
  -- accumulator (R279)
  | aclr (g : Eng)
  | mac (g : Eng)
  | msu (g : Eng)
  | qmac (g : Eng)
  | umac (g : Eng)
  | accget (g : Eng)
  | accset (g : Eng)
  | accq (g : Eng) (k : BitVec 8)
  -- special registers (R280)
  | rdsr (g : Eng) (n : BitVec 8)
  | wrsr (g : Eng) (n : BitVec 8)
  -- figure instructions (R134)
  | fig (g : Eng) (n : BitVec 8)
  | figTry (g : Eng) (n : BitVec 8)
  | setvl (g : Eng)
  | getvl (g : Eng)
  | wait (g : Eng)
  | waitTry (g : Eng)
  -- branches (R284)
  | bra (g : Eng) (d : Disp)
  | call (g : Eng) (d : Disp)
  | ret (g : Eng)
  | jmpi (g : Eng)
  | calli (g : Eng)
  | bz (g : Eng) (d : Disp)
  | bnz (g : Eng) (d : Disp)
  | bzA (g : Eng) (d : Disp)
  | bnzA (g : Eng) (d : Disp)
  | next (g : Eng) (d : BitVec 8)
  | nextA (g : Eng) (d : BitVec 8)
  | nop (g : Eng)
  -- gates, exception return, firm windows, predictor control, SYNC (R294, R393)
  | gate (g : Eng) (n : BitVec 8)
  | gret (g : Eng)
  | eret (g : Eng)
  | firm (g : Eng) (n : BitVec 16)
  | firmEnd (g : Eng)
  | waiti (g : Eng)
  | pflushCtx (g : Eng)
  | pflushAll (g : Eng)
  | pbar (g : Eng) (n : BitVec 8)
  | sync (g : Eng)
  | syncI (g : Eng)
  -- loads and stores (R298)
  | ld8u (g : Eng)
  | ld8s (g : Eng)
  | ld16u (g : Eng)
  | ld16s (g : Eng)
  | ld32 (g : Eng)
  | ld64 (g : Eng)
  | st8 (g : Eng)
  | st16 (g : Eng)
  | st32 (g : Eng)
  | st64 (g : Eng)
  | ld32d (g : Eng) (d : BitVec 8)
  | st32d (g : Eng) (d : BitVec 8)
  | ld32a (g : Eng) (w : BitVec 32)
  | st32a (g : Eng) (w : BitVec 32)
  | ld64d (g : Eng) (d : BitVec 8)
  | st64d (g : Eng) (d : BitVec 8)
  -- atomics (R309)
  | aadd (g : Eng)
  | aswap (g : Eng)
  | link (g : Eng)
  | cstore (g : Eng)
  | link64 (g : Eng)
  | cstore64 (g : Eng)
  -- pipeline events
  | loadComplete (g : Eng) (k : Nat)
  | multiplyDivideComplete (g : Eng)
  | lineFill (g : Eng) (a : Word) (ext : List Byte) (extOk : Bool)
  | storeBufferDrain (g : Eng)
  | storeErrResponse (g : Eng)
  | settleComplete (g : Eng)
  | stackSpill (g : Eng) (ret : Bool)
  | stackFill (g : Eng) (ret : Bool)
  | interruptRecognition (g : Eng)
  | exceptionEntry (g : Eng) (inWindow : Bool)
  | firmWindowExpiry (g : Eng)
  | tilVbaseWrite (who : Initiator) (t : Tile) (v : Word)
  -- caller (chapter 9)
  | calLoad (who : Initiator) (t : Tile) (c : Fin 512)
  | calHold (who : Initiator) (t : Tile) (c : Fin 512)
  | calRelease (who : Initiator) (t : Tile) (c : Fin 512)
  | calFree (who : Initiator) (t : Tile) (c : Fin 512)
  | calReady (who : Initiator) (t : Tile) (c : Fin 512)
  | parkWait (g : Eng)
  | parkYield (g : Eng)
  | parkEnd (g : Eng)
  | callerDecision (t : Tile)
  | preload (g : Eng)
  | contextSwitch (g : Eng)
  | bankDrain (g : Eng)
  | xsaveWriteback (g : Eng)
  -- doorbells (chapter 11)
  | blkDoorbell (who : Initiator) (v : Word)
  | tilDoorbell (who : Initiator) (t : Tile) (v : Word)
  | doorbellRing
  | tilClaim (who : Initiator) (t : Tile) (src : BitVec 12)
  | dbdescWrite (who : Initiator) (src : BitVec 12) (v : DWord)
  -- angle base and time (chapter 2)
  | quadCount (e : Enc) (a : Pin) (b : Pin)
  | index (e : Enc) (a : Pin) (b : Pin) (z : Pin)
  | ssiFrameStart (e : Enc) (dataHigh : Bool)
  | ssiSample (e : Enc) (bits : BitVec 37)
  | standstillEntry (e : Enc)
  | angleUpdate
  | predictiveWakeTimeout (t : Tile)
  | angCprWrite (who : Initiator) (e : Enc) (v : Word)
  | angCmpWrite (who : Initiator) (t : Tile) (k : Fin 16) (r : Fin 4) (v : Word)
  | angTimeset (who : Initiator) (v : DWord)
  | systemTimeTick
  | timeLetterSend
  | timeLetterReceive (p : Port) (frame : List Byte) (elapsed : BitVec 16) (residence : BitVec 16)
  | broadcastTimeout
  -- block mode and commit groups (chapter 1)
  | modeChange (who : Initiator) (v : Word)
  | commitGo (who : Initiator) (c : Group)
  | commitDiscard (who : Initiator) (c : Group)
  -- figure unit (chapter 3)
  | figureStart (t : Tile)
  | sequencerStep (t : Tile)
  | figLoadStage (t : Tile)
  | figMapStage (t : Tile)
  | figMacStage (t : Tile)
  | figPackStage (t : Tile)
  | figStoreStage (t : Tile)
  | figureComplete (t : Tile)
  | figAbort (who : Initiator) (t : Tile)
  | figTableAccess (t : Tile)
  -- reels (chapter 5)
  | reelAddr (who : Initiator) (n : Reel)
  | reelEn (who : Initiator) (n : Reel)
  | addrFrameReturn (n : Reel) (crcGood : Bool) (count : BitVec 8) (descs : List NodeDesc) (loopNs : BitVec 16)
  | confFrameReturn (n : Reel) (crcGood : Bool) (acks : BitVec 64)
  | passTimeout (n : Reel)
  | cycleStart (n : Reel) (c : CycleCause)
  | keepCycleStart (n : Reel)
  | slotTransmit (n : Reel)
  | returnSlotReceive (n : Reel) (hdrGood : Bool) (r : SlotReturn)
  | returnComplete (n : Reel) (hdr : Option Bool) (loopNs : BitVec 16)
  | reelClose (who : Initiator) (n : Reel) (v : Word)
  | reelExp (who : Initiator) (n : Reel) (v : DWord)
  | expressFrameStart (n : Reel)
  | expressAllowanceOpen (n : Reel)
  | expressFrameReturn (n : Reel) (intact : Bool) (acks : BitVec 16)
  | lockLoss (n : Reel)
  | lockRegain (n : Reel)
  | lossSetReceive (n : Reel) (pos : BitVec 6)
  | eventSetReceive (n : Reel) (pos : BitVec 6)
  -- relay (chapter 14)
  | trainingComplete (p : Port) (peer : BitVec 12) (rounds : List (BitVec 8 × BitVec 16))
  | trainingTimeout (x : Training)
  | blockLockLoss (p : Port)
  | retrain (who : Initiator) (p : Port)
  | letterReceive (p : Port) (frame : List Byte)
  | letterForward (p : Port) (urg : Bool)
  | letterWaitTimeout (p : Port) (urg : Bool)
  | creditReceive (p : Port) (bulk : Bool) (n : BitVec 5)
  | notreadyReceive (p : Port)
  | pingSend (p : Port)
  | pingReceive (p : Port) (x : Ping)
  | pongReceive (p : Port) (seq : BitVec 8) (turn : BitVec 8) (round : BitVec 16)
  | remoteWrite (who : Initiator) (a : Word) (size : Fin 4) (v : DWord)
  | remoteRead (who : Initiator) (a : Word) (size : Fin 4)
  | readReplyReceive (tag : BitVec 6) (status : BitVec 2) (v : DWord)
  | readTimeout (tag : BitVec 6)
  | inboundAccess
  | doorbellLetterRing
  -- faults (chapter 15)
  | faultCollect
  | tileWireFault (t : Tile)
  | hostFaultInput (p : Bool) (n : Bool)
  | fltAck (who : Initiator) (v : Word)
  | fltTest (who : Initiator) (v : Word)
  | fence (who : Initiator) (kind : BitVec 4) (ix : BitVec 18)
  | fenceRelease (who : Initiator) (kind : BitVec 4) (ix : BitVec 18)
  | tilWdsvc (who : Initiator) (t : Tile)
  | engineWatchdogExpiry (g : Eng)
  | blkWdog (who : Initiator) (v : Word)
  | blockWatchdogExpiry
  | aliveToggle
  -- resets and power (chapters 16 and 17)
  | powerOnReset (straps : BitVec 8)
  | poresetAssert
  | powerRemoval
  | standbyEnter (who : Initiator)
  | standbyWake (who : Initiator)
  | tileOff (who : Initiator) (t : Tile)
  | tileOn (who : Initiator) (t : Tile)
  | dozeEntry (t : Tile)
  | napEntry (t : Tile)
  | tileWake (t : Tile)
  | liveTrip (t : Tile)
  | quickCheck (t : Tile) (d : CheckData)
  | sweepDue
  | sweepGo (who : Initiator)
  | fullSweep (t : Tile) (d : CheckData)
  | checkComplete (t : Tile)
  | runtimeHour
  | vreqStep
  | fclkStep (t : Tile)
  | regulatorAck (t : Tile)
  -- memories (chapter 12)
  | scrubRead (u : Fin 13) (m : Fin 48)
  | correctionWriteback
  | marchTransparent (who : Initiator) (t : Tile) (v : Word)
  | marchCMinus (who : Initiator) (t : Tile) (v : Word)
  | bankMigration (who : Initiator) (t : Tile) (v : Word)
  | rowRepair (who : Initiator) (t : Tile) (v : Word)
  | libMarchTransparent (who : Initiator) (v : Word)
  | libMarchCMinus (who : Initiator) (v : Word)
  | libRowRepair (who : Initiator) (v : Word)
  | marchComplete (u : Fin 13) (fails : List (Nat × Nat))
  -- control stores (chapter 13)
  | ucReload (who : Initiator) (t : Tile) (v : Word)
  | ucVerify (who : Initiator) (t : Tile) (v : Word)
  | ucCommandComplete (t : Tile)
  -- boot (chapter 17)
  | flashDiscovery (d : Sfdp)
  | headerCheck (bytes : List Byte) (readOk : Bool)
  | sectionLoad (bytes : List Byte) (readOk : Bool)
  | groupCommitStep
  | relayWaitEnd
  | bootKdone (who : Initiator)
  | keeperWaitTimeout
  | bootGo (who : Initiator)
  | bootExt (who : Initiator)
  | bootRestart (who : Initiator)
  | tileRestart (t : Tile) (header : List Byte) (sections : List (List Byte))
  -- debug (chapter 18)
  | tapReset
  | extest (dr : BitVec 100)
  | idcode
  | samplePreload (pins : BitVec 100) (dr : BitVec 100)
  | bypass
  | fltread
  | dbgaccRead (a : Word) (size : Fin 4)
  | dbgaccWrite (a : Word) (size : Fin 4) (v : DWord)
  | debugMasterComplete
  | halt (who : Initiator) (g : Eng)
  | clrpend (who : Initiator) (g : Eng)
  | triggerWrite (who : Initiator) (t : Tile) (n : Fin 4) (r : Fin 3) (v : Word)
  | pbInWrite (who : Initiator) (g : Eng) (v : Word)
  | pbInRead (who : Initiator) (g : Eng)
  | pbOutWrite (who : Initiator) (g : Eng) (v : Word)
  -- ports (chapter 19)
  | hostRequest (write : Bool) (a : Word) (size : Fin 4) (v : DWord)
  | hostResponse
  | mmRequest
  | mmWriteBeat
  | mmResponse (write : Bool) (tag : BitVec 6) (code : MemCode) (v : BitVec 256) (last : Bool)
  | mmTimeout (write : Bool) (tag : BitVec 6)
  -- register reads with a side effect, and other register writes
  | pcClear (g : Eng) (v : Word)
  | skipsRead (who : Initiator) (t : Tile) (k : Fin 16)
  | pwcntRead (who : Initiator) (t : Tile)
  | exstatRead (who : Initiator) (n : Reel)
  | reelCntRead (who : Initiator) (n : Reel)
  | exdropRead (who : Initiator) (n : Reel)
  | lostevRead (who : Initiator) (t : Tile)
  | memcntRead (who : Initiator) (t : Tile)
  | libcntRead (who : Initiator)
  | ucCntRead (who : Initiator) (t : Tile)
  | rdstatRead (who : Initiator)
  | rlyCntRead (who : Initiator) (p : Port)
  | fltCntRead (who : Initiator)
  | kcallRead (who : Initiator) (t : Tile)
  | mmstatRead (who : Initiator)
  | tptrRead (who : Initiator) (t : Tile)
  | registerWrite (who : Initiator) (a : Word) (size : Fin 4) (v : DWord)
  | illegalOpcode (g : Eng) (bytes : List Byte)
  | pllLock (k : Nat)
  | powerGood (io : Bool) (ana : Bool) (core : Bool)
  deriving DecidableEq, Repr

end Sys2Proof
end

