-- ==== Sys2Proof/Config.lean ====
section
/-!
DEFINITION. What an implementation fixes and the free values: constants without a body, so that no proof can see what
they are. Each has its row in the assumption log.
-/

namespace Sys2Proof.Config

/-- The value that the manual leaves open, applied to the state's counter of such values. -/
opaque freeBits : Nat → BitVec 64

/-- Whether a velocity that falls between two values of the velocity format is rounded up, by the exact numerator and
denominator (the manual states no rounding for R69 and R70). -/
opaque velRoundUp : Int → Nat → Bool

/-- Whether a condition of the microcode release holds at a look of an engine: the state's counter of open values, the
look, the word's address, the COND value and the data cells (R488, R489). -/
opaque microHolds : (fresh look adr cond : Nat) → (cells : List (BitVec 32)) → Bool

/-- The hub's outgoing queue holds this many locally made write and doorbell letters and one more (R528). -/
opaque hubRoom : Nat

/-- The trust anchor, word n of BOOT_ANCHORn: the integrator's constant (R618). -/
opaque bootAnchor : Nat → BitVec 32

/-- Whether an ECDSA P-256 signature over a digest verifies under a public key: the check of R618 that the manual
names and does not restate. -/
opaque ecdsaVerify : (key : List (BitVec 8)) → (digest : List (BitVec 8)) → (sig : List (BitVec 8)) → Bool

end Sys2Proof.Config
end

