-- ==== Sys2Proof/Machine/Bits.lean ====
section
/-!
DEFINITION. Bit fields, sign extension, byte order and sparse maps: the helpers that every unit uses.
-/

namespace Sys2Proof.Machine

/-- A bit field of a register: its lowest bit and its width. -/
structure Fld where
  /-- lowest bit -/
  lo : Nat
  /-- width in bits -/
  w : Nat
  deriving DecidableEq, Repr

/-- The value of bits `[lo + w - 1 : lo]`. -/
def getBits (v lo w : Nat) : Nat := v / 2 ^ lo % 2 ^ w

/-- Whether bit `i` is 1. -/
def getBit (v i : Nat) : Bool := v / 2 ^ i % 2 == 1

/-- `v` with bits `[lo + w - 1 : lo]` replaced by the low `w` bits of `x`. -/
def putBits (v lo w x : Nat) : Nat :=
  v % 2 ^ lo + (x % 2 ^ w) * 2 ^ lo + v / 2 ^ (lo + w) * 2 ^ (lo + w)

/-- The value of a field. -/
def fldOf (v : DWord) (f : Fld) : Nat := getBits v.toNat f.lo f.w

/-- Whether a field is not 0. -/
def isSet (v : DWord) (f : Fld) : Bool := fldOf v f != 0

/-- Whether bit `i` of a register is 1. -/
def bitOf (v : DWord) (i : Nat) : Bool := getBit v.toNat i

/-- The register with a field replaced. -/
def putFld (v : DWord) (f : Fld) (x : Nat) : DWord := BitVec.ofNat 64 (putBits v.toNat f.lo f.w x)

/-- A truth value as 0 or 1. -/
def bnat (b : Bool) : Nat := if b then 1 else 0

/-- The 32-bit word of a truth value. -/
def bword (b : Bool) : Word := if b then 1 else 0

/-- A number of `w` bits read as two's complement. -/
def toSigned (w v : Nat) : Int := if v % 2 ^ w < 2 ^ (w - 1) then (v % 2 ^ w : Nat) else (v % 2 ^ w : Nat) - 2 ^ w

/-- The low `w` bits of an integer, as a natural number. -/
def ofSigned (w : Nat) (i : Int) : Nat := (i % 2 ^ w).toNat

/-- The value that the listed key has, or `d`. -/
def mget {α : Type} (d : α) : Map α → Nat → α
  | [], _ => d
  | (k, v) :: r, i => if k = i then v else mget d r i

/-- The map with key `i` at `v`: in place, or inserted in order. -/
def mset {α : Type} : Map α → Nat → α → Map α
  | [], i, v => [(i, v)]
  | (k, x) :: r, i, v => if k = i then (i, v) :: r else if i < k then (i, v) :: (k, x) :: r else (k, x) :: mset r i v

/-- The map without key `i`. -/
def mdel {α : Type} (m : Map α) (i : Nat) : Map α := m.filter (fun p => p.1 != i)

/-- Whether a key is listed. -/
def mhas {α : Type} (m : Map α) (i : Nat) : Bool := m.any (fun p => p.1 == i)

/-- The bytes of `v`, `n` of them, the lowest first (R4). -/
def leBytes : Nat → Nat → List Byte
  | 0, _ => []
  | n + 1, v => BitVec.ofNat 8 v :: leBytes n (v / 256)

/-- The number that bytes spell, the lowest byte first (R4). -/
def leVal : List Byte → Nat
  | [] => 0
  | b :: r => b.toNat + 256 * leVal r

/-- The numbers `0, …, n - 1` that satisfy `p`, as a bit mask. -/
def maskOf (n : Nat) (p : Nat → Bool) : Nat := (List.range n).foldl (fun a i => if p i then a + 2 ^ i else a) 0

/-- The first number below `n` that satisfies `p`. -/
def firstBelow (n : Nat) (p : Nat → Bool) : Option Nat := (List.range n).find? p

/-- A list with its element `i` replaced. -/
def setAt {α : Type} (l : List α) (i : Nat) (v : α) : List α := l.set i v

/-- A count that stops at `top`. -/
def satInc (top v : Nat) : Nat := if v < top then v + 1 else v

end Sys2Proof.Machine
end

