-- ==== Sys2Proof/Machine/Adr.lean ====
section
/-!
DEFINITION. The registers' addresses in the shared map (the register index of R679 and R680, R8, R246, R537, R658) and
the bits of their fields, under the manual's own names: `Adr.REGISTER`, `Bits.REGISTER_FIELD`. A replicated register
takes its tile `t` or reel `n` first, then its index, then its word.
-/

namespace Sys2Proof.Machine.Adr

def BLK_ID : Nat := 0x30000000
def BLK_MODE : Nat := 0x30000004
def BLK_BOOTCTL : Nat := 0x30000008
def BLK_HPSTAT : Nat := 0x30000100
def BLK_MMCFG : Nat := 0x30000110
def BLK_MMSTAT : Nat := 0x30000114
def BLK_DOORBELL : Nat := 0x30000800
def BLK_DBSTAT : Nat := 0x30000804
def ANG_CTL : Nat := 0x30001000
def ANG_CFG (i : Nat) : Nat := 0x30001100 + 0x40 * i
def ANG_CPR (i : Nat) : Nat := 0x30001104 + 0x40 * i
def ANG_ZOFF (i : Nat) : Nat := 0x30001108 + 0x40 * i
def ANG_SSI (i : Nat) : Nat := 0x3000110C + 0x40 * i
def ANG_ANGLE (i : Nat) : Nat := 0x30001110 + 0x40 * i
def ANG_VEL (i : Nat) : Nat := 0x30001114 + 0x40 * i
def ANG_COUNT (i : Nat) : Nat := 0x30001118 + 0x40 * i
def ANG_ZERR (i : Nat) : Nat := 0x3000111C + 0x40 * i
def ANG_STILLT (i : Nat) : Nat := 0x30001120 + 0x40 * i
def ANG_STAT (i : Nat) : Nat := 0x30001124 + 0x40 * i
def ANG_TIME : Nat := 0x30001200
def ANG_TIMESET : Nat := 0x30001208
def ANG_TRIM : Nat := 0x30001210
def ANG_BCCTL : Nat := 0x30001214
def ANG_BCERR : Nat := 0x30001218
def BLK_LIBSTAT : Nat := 0x30003000
def BLK_LIBCNT : Nat := 0x30003004
def BLK_LIBCEADDR : Nat := 0x30003008
def BLK_LIBUEADDR : Nat := 0x3000300C
def BLK_LIBSCRUB : Nat := 0x30003010
def BLK_LIBSCRUBPASS : Nat := 0x30003014
def BLK_LIBMARCH : Nat := 0x30003018
def BLK_LIBMARCHST : Nat := 0x3000301C
def BLK_LMFAIL (i : Nat) : Nat := 0x30003020 + 0x4 * i
def BLK_LIBINJ : Nat := 0x30003080
def BLK_LIBINJCTL : Nat := 0x30003084
def BLK_LRP (i j : Nat) : Nat := 0x30003100 + 0x40 * i + 0x4 * j
def FLT_CTL : Nat := 0x30004000
def FLT_ACK : Nat := 0x30004004
def FLT_TEST : Nat := 0x30004008
def FLT_FIRST_SRC (i : Nat) : Nat := 0x30004010 + 0x10 * i
def FLT_FIRST_DET (i : Nat) : Nat := 0x30004014 + 0x10 * i
def FLT_FIRST_TIME (i : Nat) : Nat := 0x30004018 + 0x10 * i
def FLT_CNT : Nat := 0x30004040
def FLT_FENCE : Nat := 0x30004044
def FLT_FSTAT : Nat := 0x30004048
def FLT_FTILE : Nat := 0x3000404C
def FLT_FPORT : Nat := 0x30004050
def FLT_INCFG : Nat := 0x30004054
def FLT_SAFE : Nat := 0x30004058
def BLK_WDOG : Nat := 0x30004060
def BLK_WDCFG : Nat := 0x30004064
def BLK_WDCNT : Nat := 0x30004068
def FLT_FENG (i : Nat) : Nat := 0x30004080 + 0x4 * i
def FLT_FNODE (i : Nat) : Nat := 0x30004100 + 0x8 * i
def MRG_BLKV : Nat := 0x30005000
def MRG_STBY : Nat := 0x30005004
def MRG_RUNTIME : Nat := 0x30005008
def MRG_SWEEP : Nat := 0x3000500C
def MRG_GUARD : Nat := 0x30005010
def MRG_AGE : Nat := 0x30005014
def MRG_LOGBASE : Nat := 0x30005018
def MRG_LOGCTL : Nat := 0x3000501C
def BOOT_STRAP : Nat := 0x30006000
def BOOT_STAT : Nat := 0x30006004
def BOOT_TIME : Nat := 0x30006008
def BOOT_IMGID : Nat := 0x3000600C
def BOOT_FSIZE : Nat := 0x30006010
def BOOT_KDONE : Nat := 0x30006014
def BOOT_KREADY : Nat := 0x30006018
def BOOT_TRSTAT : Nat := 0x3000601C
def BOOT_ANCHOR (i : Nat) : Nat := 0x30006020 + 0x4 * i
def BLK_DBDESC (i : Nat) : Nat := 0x30020000 + 0x8 * i
def ANG_CMP_CTL (t i : Nat) : Nat := 0x31000000 + 0x100000 * t + 0x4000 + 0x10 * i
def ANG_CMP_VAL (t i : Nat) : Nat := 0x31000000 + 0x100000 * t + 0x4004 + 0x10 * i
def ANG_CMP_INC (t i : Nat) : Nat := 0x31000000 + 0x100000 * t + 0x4008 + 0x10 * i
def ANG_CMP_STAT (t i : Nat) : Nat := 0x31000000 + 0x100000 * t + 0x400C + 0x10 * i
def ANG_WAKE (t : Nat) : Nat := 0x31000000 + 0x100000 * t + 0x4100
def ANG_PWCNT (t : Nat) : Nat := 0x31000000 + 0x100000 * t + 0x4104
def ANG_TTIME (t : Nat) : Nat := 0x31000000 + 0x100000 * t + 0x4108
def FIG_CTL (t : Nat) : Nat := 0x31000000 + 0x100000 * t + 0x5000
def FIG_STAT (t : Nat) : Nat := 0x31000000 + 0x100000 * t + 0x5004
def FIG_RESUME (t : Nat) : Nat := 0x31000000 + 0x100000 * t + 0x5008
def FIG_FADDR (t : Nat) : Nat := 0x31000000 + 0x100000 * t + 0x500C
def FIG_STEPLIM (t : Nat) : Nat := 0x31000000 + 0x100000 * t + 0x5010
def FIG_FMT_COMMIT (t : Nat) : Nat := 0x31000000 + 0x100000 * t + 0x5040
def FIG_TKSTAT (t i : Nat) : Nat := 0x31000000 + 0x100000 * t + 0x5080 + 0x4 * i
def FIG_TKDP (t i : Nat) : Nat := 0x31000000 + 0x100000 * t + 0x50C0 + 0x4 * i
def FIG_FMT (t i : Nat) : Nat := 0x31000000 + 0x100000 * t + 0x5100 + 0x4 * i
def FIG_MAP (t i : Nat) : Nat := 0x31000000 + 0x100000 * t + 0x5400 + 0x4 * i
def FIG_LUT (t i j : Nat) : Nat := 0x31000000 + 0x100000 * t + 0x6000 + 0x400 * i + 0x4 * j
def FIG_P (t i j : Nat) : Nat := 0x31000000 + 0x100000 * t + 0x7000 + 0x80 * i + 0x4 * j
def CAL_CTX_CTL (t i : Nat) : Nat := 0x31000000 + 0x100000 * t + 0x8000 + 0x20 * i
def CAL_CTX_TSBP (t i : Nat) : Nat := 0x31000000 + 0x100000 * t + 0x8004 + 0x20 * i
def CAL_CTX_DSLIM (t i : Nat) : Nat := 0x31000000 + 0x100000 * t + 0x8008 + 0x20 * i
def CAL_CTX_RSLIM (t i : Nat) : Nat := 0x31000000 + 0x100000 * t + 0x800C + 0x20 * i
def CAL_CTX_XSAVE (t i : Nat) : Nat := 0x31000000 + 0x100000 * t + 0x8010 + 0x20 * i
def CAL_CTX_EVENT (t i : Nat) : Nat := 0x31000000 + 0x100000 * t + 0x8014 + 0x20 * i
def CAL_CTX_DFADDR (t i : Nat) : Nat := 0x31000000 + 0x100000 * t + 0x8018 + 0x20 * i
def CAL_CTX_READYT (t i : Nat) : Nat := 0x31000000 + 0x100000 * t + 0x801C + 0x20 * i
def CAL_CTL (t : Nat) : Nat := 0x31000000 + 0x100000 * t + 0xC000
def CAL_STAT (t : Nat) : Nat := 0x31000000 + 0x100000 * t + 0xC004
def CAL_LOSTEV (t : Nat) : Nat := 0x31000000 + 0x100000 * t + 0xC008
def CAL_CMD (t : Nat) : Nat := 0x31000000 + 0x100000 * t + 0xC00C
def CAL_READY (t : Nat) : Nat := 0x31000000 + 0x100000 * t + 0xC010
def CAL_PARK (t : Nat) : Nat := 0x31000000 + 0x100000 * t + 0xC014
def CAL_ENG (t i : Nat) : Nat := 0x31000000 + 0x100000 * t + 0xC040 + 0x4 * i
def TIL_VBASE (t : Nat) : Nat := 0x31000000 + 0x100000 * t + 0xD000
def TIL_FIRMLIM (t : Nat) : Nat := 0x31000000 + 0x100000 * t + 0xD004
def TIL_XRES (t : Nat) : Nat := 0x31000000 + 0x100000 * t + 0xD008
def TIL_LGSTAT (t : Nat) : Nat := 0x31000000 + 0x100000 * t + 0xD00C
def ENG_LG (t i j : Nat) : Nat := 0x31000000 + 0x100000 * t + 0xD400 + 0x40 * i + 0x4 * j
def TIL_GATE_PC (t i : Nat) : Nat := 0x31000000 + 0x100000 * t + 0xD800 + 0x8 * i
def TIL_GATE_CTL (t i : Nat) : Nat := 0x31000000 + 0x100000 * t + 0xD804 + 0x8 * i
def TIL_DOORBELL (t : Nat) : Nat := 0x31000000 + 0x100000 * t + 0xE000
def TIL_PEND (t i : Nat) : Nat := 0x31000000 + 0x100000 * t + 0xE100 + 0x8 * i
def TIL_PSUM (t : Nat) : Nat := 0x31000000 + 0x100000 * t + 0xE300
def TIL_REP (t i : Nat) : Nat := 0x31000000 + 0x100000 * t + 0xE400 + 0x8 * i
def TIL_MEMSTAT (t : Nat) : Nat := 0x31000000 + 0x100000 * t + 0xF000
def TIL_MEMCNT (t : Nat) : Nat := 0x31000000 + 0x100000 * t + 0xF004
def TIL_MEMCEADDR (t : Nat) : Nat := 0x31000000 + 0x100000 * t + 0xF008
def TIL_MEMUEADDR (t : Nat) : Nat := 0x31000000 + 0x100000 * t + 0xF00C
def TIL_SCRUB (t : Nat) : Nat := 0x31000000 + 0x100000 * t + 0xF010
def TIL_SCRUBPASS (t : Nat) : Nat := 0x31000000 + 0x100000 * t + 0xF014
def TIL_MARCH (t : Nat) : Nat := 0x31000000 + 0x100000 * t + 0xF018
def TIL_MARCHST (t : Nat) : Nat := 0x31000000 + 0x100000 * t + 0xF01C
def TIL_MFAIL (t i : Nat) : Nat := 0x31000000 + 0x100000 * t + 0xF020 + 0x4 * i
def TIL_REMAP (t i : Nat) : Nat := 0x31000000 + 0x100000 * t + 0xF060 + 0x4 * i
def TIL_MEMINJ (t : Nat) : Nat := 0x31000000 + 0x100000 * t + 0xF080
def TIL_MEMINJCTL (t : Nat) : Nat := 0x31000000 + 0x100000 * t + 0xF084
def TIL_SPR (t i j : Nat) : Nat := 0x31000000 + 0x100000 * t + 0xF100 + 0x40 * i + 0x4 * j
def TIL_CLAIM (t i : Nat) : Nat := 0x31000000 + 0x100000 * t + 0x10000 + 0x4 * i
def MRG_PAIR (t : Nat) : Nat := 0x31000000 + 0x100000 * t + 0x14000
def MRG_PAIR_COMMIT (t : Nat) : Nat := 0x31000000 + 0x100000 * t + 0x14004
def MRG_TPLAN (t : Nat) : Nat := 0x31000000 + 0x100000 * t + 0x14008
def MRG_TSTAT (t : Nat) : Nat := 0x31000000 + 0x100000 * t + 0x1400C
def MRG_PROP (t : Nat) : Nat := 0x31000000 + 0x100000 * t + 0x14010
def MRG_SLEEP (t : Nat) : Nat := 0x31000000 + 0x100000 * t + 0x14014
def MRG_PWR (t : Nat) : Nat := 0x31000000 + 0x100000 * t + 0x14018
def MRG_CAN (t i : Nat) : Nat := 0x31000000 + 0x100000 * t + 0x14020 + 0x4 * i
def MRG_ROSC (t : Nat) : Nat := 0x31000000 + 0x100000 * t + 0x14030
def MRG_TAGE (t : Nat) : Nat := 0x31000000 + 0x100000 * t + 0x14034
def UC_VERSION (t : Nat) : Nat := 0x31000000 + 0x100000 * t + 0x15000
def UC_PATCH (t : Nat) : Nat := 0x31000000 + 0x100000 * t + 0x15004
def UC_GOLDV (t : Nat) : Nat := 0x31000000 + 0x100000 * t + 0x15008
def UC_GOLDF (t : Nat) : Nat := 0x31000000 + 0x100000 * t + 0x1500C
def UC_CMD (t : Nat) : Nat := 0x31000000 + 0x100000 * t + 0x15010
def UC_MASK (t : Nat) : Nat := 0x31000000 + 0x100000 * t + 0x15014
def UC_STAT (t : Nat) : Nat := 0x31000000 + 0x100000 * t + 0x15018
def UC_ERR (t : Nat) : Nat := 0x31000000 + 0x100000 * t + 0x1501C
def UC_CNT (t : Nat) : Nat := 0x31000000 + 0x100000 * t + 0x15020
def TIL_KCALL (t : Nat) : Nat := 0x31000000 + 0x100000 * t + 0x16000
def TIL_WDCFG (t : Nat) : Nat := 0x31000000 + 0x100000 * t + 0x16004
def TIL_WDSVC (t : Nat) : Nat := 0x31000000 + 0x100000 * t + 0x16008
def TIL_WDEXP (t : Nat) : Nat := 0x31000000 + 0x100000 * t + 0x1600C
def REEL_CTL (n : Nat) : Nat := 0x32000000 + 0x1000 * n + 0x0
def REEL_STAT (n : Nat) : Nat := 0x32000000 + 0x1000 * n + 0x4
def REEL_PER (n : Nat) : Nat := 0x32000000 + 0x1000 * n + 0x8
def REEL_FIRE (n : Nat) : Nat := 0x32000000 + 0x1000 * n + 0xC
def REEL_APHASE (n : Nat) : Nat := 0x32000000 + 0x1000 * n + 0x10
def REEL_AINC (n : Nat) : Nat := 0x32000000 + 0x1000 * n + 0x14
def REEL_COMMIT (n : Nat) : Nat := 0x32000000 + 0x1000 * n + 0x18
def REEL_CYCLE (n : Nat) : Nat := 0x32000000 + 0x1000 * n + 0x1C
def REEL_RETCYC (n : Nat) : Nat := 0x32000000 + 0x1000 * n + 0x20
def REEL_LOOP (n : Nat) : Nat := 0x32000000 + 0x1000 * n + 0x24
def REEL_CLOSE (n : Nat) : Nat := 0x32000000 + 0x1000 * n + 0x28
def REEL_EXSTAT (n : Nat) : Nat := 0x32000000 + 0x1000 * n + 0x2C
def REEL_EXP (n : Nat) : Nat := 0x32000000 + 0x1000 * n + 0x30
def REEL_CNT (n : Nat) : Nat := 0x32000000 + 0x1000 * n + 0x38
def REEL_ERRPOS (n : Nat) : Nat := 0x32000000 + 0x1000 * n + 0x3C
def REEL_CLOSED (n : Nat) : Nat := 0x32000000 + 0x1000 * n + 0x40
def REEL_RETOK (n : Nat) : Nat := 0x32000000 + 0x1000 * n + 0x48
def REEL_EXDROP (n : Nat) : Nat := 0x32000000 + 0x1000 * n + 0x50
def REEL_SLOT (n i : Nat) : Nat := 0x32000000 + 0x1000 * n + 0x100 + 0x4 * i
def REEL_NODE (n i j : Nat) : Nat := 0x32000000 + 0x1000 * n + 0x400 + 0x10 * i + 0x4 * j
def RLY_ID : Nat := 0x33000000
def RLY_CTL : Nat := 0x33000004
def RLY_SHARE : Nat := 0x33000008
def RLY_TIME : Nat := 0x3300000C
def RLY_HOSTPC : Nat := 0x33000010
def RLY_RDSTAT : Nat := 0x33000014
def RLY_INWIN_BASE (i : Nat) : Nat := 0x33000020 + 0x8 * i
def RLY_INWIN_CTL (i : Nat) : Nat := 0x33000024 + 0x8 * i
def RLY_ROUTE_COMMIT : Nat := 0x33000080
def RLY_PCTL (i : Nat) : Nat := 0x33000100 + 0x40 * i
def RLY_PSTAT (i : Nat) : Nat := 0x33000104 + 0x40 * i
def RLY_CRED (i : Nat) : Nat := 0x33000108 + 0x40 * i
def RLY_LAT (i : Nat) : Nat := 0x3300010C + 0x40 * i
def RLY_CNT (i : Nat) : Nat := 0x33000110 + 0x40 * i
def RLY_RTBLK (i : Nat) : Nat := 0x33001000 + 0x4 * i
def DBG_CTL : Nat := 0x34000000
def DBG_STAT : Nat := 0x34000004
def DBG_ECTL (i : Nat) : Nat := 0x34000100 + 0x10 * i
def DBG_ESTAT (i : Nat) : Nat := 0x34000104 + 0x10 * i
def DBG_EHIT (i : Nat) : Nat := 0x34000108 + 0x10 * i
def DBG_PB_IN (i : Nat) : Nat := 0x34001000 + 0x10 * i
def DBG_PB_OUT (i : Nat) : Nat := 0x34001004 + 0x10 * i
def DBG_PB_STAT (i : Nat) : Nat := 0x34001008 + 0x10 * i
def DBG_TCTL (i : Nat) : Nat := 0x34002000 + 0x200 * i
def DBG_AC_ADDR (i j : Nat) : Nat := 0x34002010 + 0x200 * i + 0x8 * j
def DBG_AC_CTL (i j : Nat) : Nat := 0x34002014 + 0x200 * i + 0x8 * j
def DBG_DC_VAL (i j : Nat) : Nat := 0x34002050 + 0x200 * i + 0x10 * j
def DBG_DC_MASK (i j : Nat) : Nat := 0x34002054 + 0x200 * i + 0x10 * j
def DBG_DC_CTL (i j : Nat) : Nat := 0x34002058 + 0x200 * i + 0x10 * j
def DBG_CC (i j : Nat) : Nat := 0x34002090 + 0x200 * i + 0x4 * j
def DBG_TRG_CTL (i j : Nat) : Nat := 0x340020A0 + 0x200 * i + 0x10 * j
def DBG_TRG_ENG (i j : Nat) : Nat := 0x340020A4 + 0x200 * i + 0x10 * j
def DBG_TRG_CNT (i j : Nat) : Nat := 0x340020A8 + 0x200 * i + 0x10 * j
def DBG_TPTR (i : Nat) : Nat := 0x340020E0 + 0x200 * i
def DBG_TMARK (i j : Nat) : Nat := 0x34002100 + 0x200 * i + 0x4 * j

end Sys2Proof.Machine.Adr

namespace Sys2Proof.Machine.Bits

def COMMIT_SEQ : Fld := ⟨24, 8⟩
def COMMIT_RESULT : Fld := ⟨6, 2⟩
def COMMIT_LATE : Fld := ⟨5, 1⟩
def COMMIT_DISCARD : Fld := ⟨2, 1⟩
def COMMIT_PENDING : Fld := ⟨1, 1⟩
def COMMIT_GO : Fld := ⟨0, 1⟩
def CHAN_STATE : Fld := ⟨60, 4⟩
def CHAN_CMD : Fld := ⟨56, 4⟩
def CHAN_OFFSET : Fld := ⟨46, 10⟩
def CHAN_FCOUNT : Fld := ⟨40, 6⟩
def CHAN_RBMODE : Fld := ⟨38, 2⟩
def CHAN_WEAR : Fld := ⟨16, 22⟩
def CHAN_LAST : Fld := ⟨0, 16⟩
def PSW_GM : Fld := ⟨31, 1⟩
def PSW_IPL : Fld := ⟨24, 3⟩
def PSW_RING : Fld := ⟨16, 2⟩
def PSW_FIRM : Fld := ⟨8, 1⟩
def PSW_SAT : Fld := ⟨2, 1⟩
def PSW_V : Fld := ⟨1, 1⟩
def PSW_C : Fld := ⟨0, 1⟩
def TSBP_FRAME : Fld := ⟨6, 26⟩
def TSBP_LEFT : Fld := ⟨0, 3⟩
def RPC_HI : Fld := ⟨30, 2⟩
def RPC_URG : Fld := ⟨29, 1⟩
def RPC_POSTCODE : Fld := ⟨0, 12⟩
def BLK_ID_PART : Fld := ⟨16, 16⟩
def BLK_ID_MAJOR : Fld := ⟨8, 8⟩
def BLK_ID_MINOR : Fld := ⟨0, 8⟩
def BLK_MODE_KEY : Fld := ⟨24, 8⟩
def BLK_MODE_FATAL : Fld := ⟨16, 1⟩
def BLK_MODE_REFUSED : Fld := ⟨8, 1⟩
def BLK_MODE_MODE : Fld := ⟨0, 3⟩
def ANG_CTL_STILLMASK : Fld := ⟨0, 4⟩
def ANG_CFG_VAVG : Fld := ⟨11, 2⟩
def ANG_CFG_FILT : Fld := ⟨8, 3⟩
def ANG_CFG_ZQUAL : Fld := ⟨6, 2⟩
def ANG_CFG_INV : Fld := ⟨5, 1⟩
def ANG_CFG_ZEN : Fld := ⟨4, 1⟩
def ANG_CFG_TYPE : Fld := ⟨0, 2⟩
def ANG_CPR_CPR : Fld := ⟨0, 21⟩
def ANG_ZOFF_ZOFF : Fld := ⟨0, 20⟩
def ANG_SSI_PER : Fld := ⟨24, 8⟩
def ANG_SSI_DIV : Fld := ⟨16, 8⟩
def ANG_SSI_PAR : Fld := ⟨13, 1⟩
def ANG_SSI_GRAY : Fld := ⟨12, 1⟩
def ANG_SSI_MT : Fld := ⟨8, 4⟩
def ANG_SSI_BITS : Fld := ⟨0, 5⟩
def ANG_ANGLE_REV : Fld := ⟨20, 12⟩
def ANG_ANGLE_FRAC : Fld := ⟨0, 20⟩
def ANG_ZERR_ZTOL : Fld := ⟨16, 16⟩
def ANG_ZERR_ZERR : Fld := ⟨0, 16⟩
def ANG_STILLT_STILLT : Fld := ⟨0, 16⟩
def ANG_STAT_BCLOST : Fld := ⟨7, 1⟩
def ANG_STAT_SSIERR : Fld := ⟨6, 1⟩
def ANG_STAT_ZBAD : Fld := ⟨5, 1⟩
def ANG_STAT_QERR : Fld := ⟨4, 1⟩
def ANG_STAT_HOMED : Fld := ⟨3, 1⟩
def ANG_STAT_DIR : Fld := ⟨2, 1⟩
def ANG_STAT_STILL : Fld := ⟨0, 1⟩
def ANG_BCCTL_TMO : Fld := ⟨24, 8⟩
def ANG_BCCTL_PER : Fld := ⟨16, 8⟩
def ANG_BCCTL_ROLE : Fld := ⟨0, 2⟩
def ANG_CMP_CTL_EN : Fld := ⟨31, 1⟩
def ANG_CMP_CTL_MODE : Fld := ⟨29, 2⟩
def ANG_CMP_CTL_DIR : Fld := ⟨27, 2⟩
def ANG_CMP_CTL_SRC : Fld := ⟨25, 2⟩
def ANG_CMP_CTL_ACTION : Fld := ⟨24, 1⟩
def ANG_CMP_CTL_PWAKE : Fld := ⟨23, 1⟩
def ANG_CMP_CTL_CTX : Fld := ⟨0, 9⟩
def ANG_CMP_STAT_SKIPS : Fld := ⟨16, 16⟩
def ANG_CMP_STAT_SKIP : Fld := ⟨2, 1⟩
def ANG_CMP_STAT_OVER : Fld := ⟨1, 1⟩
def ANG_CMP_STAT_FIRED : Fld := ⟨0, 1⟩
def ANG_WAKE_WAKE_LEAD : Fld := ⟨0, 16⟩
def ANG_PWCNT_FALSE : Fld := ⟨16, 16⟩
def ANG_PWCNT_WOKE : Fld := ⟨0, 16⟩
def FIG_CTL_ABORT : Fld := ⟨0, 1⟩
def FIG_STAT_NEXT : Fld := ⟨24, 8⟩
def FIG_STAT_DONE : Fld := ⟨16, 8⟩
def FIG_STAT_QCNT : Fld := ⟨12, 4⟩
def FIG_STAT_RUN : Fld := ⟨11, 1⟩
def FIG_STAT_FENCED : Fld := ⟨10, 1⟩
def FIG_RESUME_TICKET : Fld := ⟨24, 8⟩
def FIG_RESUME_CAUSE : Fld := ⟨20, 4⟩
def FIG_RESUME_K : Fld := ⟨0, 11⟩
def FIG_STEPLIM_LIMIT : Fld := ⟨0, 24⟩
def FIG_FMT_AFMT : Fld := ⟨28, 4⟩
def FIG_FMT_BFMT : Fld := ⟨24, 4⟩
def FIG_FMT_CFMT : Fld := ⟨20, 4⟩
def FIG_FMT_ACCSH : Fld := ⟨14, 6⟩
def FIG_FMT_RND : Fld := ⟨12, 2⟩
def FIG_FMT_WRAPO : Fld := ⟨11, 1⟩
def FIG_MAP_VALID : Fld := ⟨31, 1⟩
def FIG_MAP_RING : Fld := ⟨29, 2⟩
def FIG_MAP_FMT : Fld := ⟨11, 4⟩
def FIG_MAP_START : Fld := ⟨0, 11⟩
def FIG_LUT_VALUE : Fld := ⟨0, 16⟩
def REEL_CTL_HOLD : Fld := ⟨24, 8⟩
def REEL_CTL_RETDB : Fld := ⟨3, 1⟩
def REEL_CTL_ADDR : Fld := ⟨2, 1⟩
def REEL_CTL_FSAFE : Fld := ⟨1, 1⟩
def REEL_CTL_EN : Fld := ⟨0, 1⟩
def REEL_STAT_STATE : Fld := ⟨29, 3⟩
def REEL_STAT_NODES : Fld := ⟨22, 7⟩
def REEL_STAT_LOCK : Fld := ⟨21, 1⟩
def REEL_STAT_EXDROP : Fld := ⟨12, 1⟩
def REEL_STAT_OVERN : Fld := ⟨11, 1⟩
def REEL_STAT_DESCBAD : Fld := ⟨10, 1⟩
def REEL_STAT_MAPBAD : Fld := ⟨9, 1⟩
def REEL_STAT_TLATE : Fld := ⟨8, 1⟩
def REEL_STAT_EXNACK : Fld := ⟨7, 1⟩
def REEL_STAT_SLOTBAD : Fld := ⟨6, 1⟩
def REEL_STAT_HDRBAD : Fld := ⟨5, 1⟩
def REEL_STAT_BREAK : Fld := ⟨4, 1⟩
def REEL_STAT_LOSS : Fld := ⟨3, 1⟩
def REEL_STAT_ADDRFAIL : Fld := ⟨2, 1⟩
def REEL_STAT_ADDRREF : Fld := ⟨1, 1⟩
def REEL_STAT_NOANS : Fld := ⟨0, 1⟩
def REEL_PER_MODE : Fld := ⟨31, 1⟩
def REEL_PER_PER : Fld := ⟨0, 17⟩
def REEL_FIRE_FIRE : Fld := ⟨0, 16⟩
def REEL_AINC_SRC : Fld := ⟨30, 2⟩
def REEL_AINC_INC : Fld := ⟨0, 30⟩
def REEL_LOOP_LOOP : Fld := ⟨0, 16⟩
def REEL_CLOSE_ALL : Fld := ⟨6, 1⟩
def REEL_CLOSE_POS : Fld := ⟨0, 6⟩
def REEL_EXSTAT_SEQ : Fld := ⟨24, 8⟩
def REEL_EXSTAT_NACK : Fld := ⟨16, 8⟩
def REEL_EXSTAT_LOST : Fld := ⟨8, 8⟩
def REEL_EXSTAT_ALLOW : Fld := ⟨7, 1⟩
def REEL_EXSTAT_QLEN : Fld := ⟨0, 7⟩
def REEL_CNT_LOSSCNT : Fld := ⟨16, 16⟩
def REEL_CNT_BAD : Fld := ⟨0, 16⟩
def REEL_ERRPOS_BRKV : Fld := ⟨14, 1⟩
def REEL_ERRPOS_BREAKPOS : Fld := ⟨8, 6⟩
def REEL_ERRPOS_EVV : Fld := ⟨6, 1⟩
def REEL_ERRPOS_EVPOS : Fld := ⟨0, 6⟩
def REEL_EXDROP_DROPPED : Fld := ⟨0, 16⟩
def REEL_SLOT_EN : Fld := ⟨31, 1⟩
def REEL_SLOT_LEN : Fld := ⟨0, 8⟩
def CAL_CTL_RUN : Fld := ⟨0, 16⟩
def CAL_STAT_NREADY : Fld := ⟨16, 10⟩
def CAL_STAT_EVLOST : Fld := ⟨2, 1⟩
def CAL_STAT_WREF : Fld := ⟨1, 1⟩
def CAL_STAT_CMDREF : Fld := ⟨0, 1⟩
def CAL_LOSTEV_COUNT : Fld := ⟨0, 16⟩
def CAL_CMD_OP : Fld := ⟨28, 4⟩
def CAL_CMD_CTX : Fld := ⟨0, 9⟩
def CAL_READY_CTX : Fld := ⟨0, 9⟩
def CAL_PARK_OP : Fld := ⟨0, 2⟩
def CAL_ENG_PLACED : Fld := ⟨31, 1⟩
def CAL_ENG_CTX : Fld := ⟨22, 9⟩
def CAL_ENG_DECKV : Fld := ⟨21, 1⟩
def CAL_ENG_DECK : Fld := ⟨12, 9⟩
def CAL_ENG_XOWNV : Fld := ⟨11, 1⟩
def CAL_ENG_XOWN : Fld := ⟨0, 9⟩
def TIL_VBASE_BASE : Fld := ⟨11, 21⟩
def TIL_FIRMLIM_LIMIT : Fld := ⟨0, 11⟩
def TIL_XRES_RRES : Fld := ⟨8, 6⟩
def TIL_XRES_DRES : Fld := ⟨0, 6⟩
def TIL_LGSTAT_FROZEN : Fld := ⟨0, 16⟩
def TIL_GATE_CTL_VALID : Fld := ⟨31, 1⟩
def TIL_GATE_CTL_RING : Fld := ⟨2, 2⟩
def TIL_GATE_CTL_CMAX : Fld := ⟨0, 2⟩
def BLK_DOORBELL_SRC : Fld := ⟨0, 12⟩
def BLK_DBSTAT_REMREF : Fld := ⟨5, 1⟩
def BLK_DBSTAT_RINGREF : Fld := ⟨4, 1⟩
def BLK_DBSTAT_HWREF : Fld := ⟨3, 1⟩
def BLK_DBSTAT_NORUN : Fld := ⟨2, 1⟩
def BLK_DBSTAT_DISHIT : Fld := ⟨1, 1⟩
def BLK_DBSTAT_DESCREF : Fld := ⟨0, 1⟩
def BLK_DBDESC_EN : Fld := ⟨63, 1⟩
def BLK_DBDESC_MODE : Fld := ⟨62, 1⟩
def BLK_DBDESC_LEVEL : Fld := ⟨60, 2⟩
def BLK_DBDESC_WRING : Fld := ⟨58, 2⟩
def BLK_DBDESC_REMOTE : Fld := ⟨57, 1⟩
def BLK_DBDESC_TILE : Fld := ⟨52, 4⟩
def BLK_DBDESC_CTX : Fld := ⟨32, 9⟩
def BLK_DBDESC_MASK : Fld := ⟨0, 16⟩
def TIL_DOORBELL_SRC : Fld := ⟨0, 12⟩
def TIL_CLAIM_REPEAT : Fld := ⟨12, 1⟩
def TIL_CLAIM_SRC : Fld := ⟨0, 12⟩
def TIL_MEMSTAT_MREF : Fld := ⟨7, 1⟩
def TIL_MEMSTAT_REPNEW : Fld := ⟨6, 1⟩
def TIL_MEMSTAT_NOSPARE : Fld := ⟨5, 1⟩
def TIL_MEMSTAT_MFAIL : Fld := ⟨4, 1⟩
def TIL_MEMSTAT_MDONE : Fld := ⟨3, 1⟩
def TIL_MEMSTAT_UE : Fld := ⟨1, 1⟩
def TIL_MEMSTAT_CE : Fld := ⟨0, 1⟩
def TIL_MEMCNT_CECNT : Fld := ⟨16, 16⟩
def TIL_MEMCNT_UECNT : Fld := ⟨0, 16⟩
def TIL_SCRUB_EN : Fld := ⟨31, 1⟩
def TIL_SCRUB_INT : Fld := ⟨0, 16⟩
def TIL_MARCH_GO : Fld := ⟨31, 1⟩
def TIL_MARCH_OP : Fld := ⟨28, 3⟩
def TIL_MARCH_TGT : Fld := ⟨26, 2⟩
def TIL_MARCH_ENG : Fld := ⟨22, 4⟩
def TIL_MARCH_LBANK : Fld := ⟨17, 5⟩
def TIL_MARCH_ROW : Fld := ⟨0, 10⟩
def TIL_MARCHST_BUSY : Fld := ⟨31, 1⟩
def TIL_MARCHST_OP : Fld := ⟨28, 3⟩
def TIL_MARCHST_RESULT : Fld := ⟨26, 2⟩
def TIL_MARCHST_PROG : Fld := ⟨0, 16⟩
def TIL_MFAIL_V : Fld := ⟨31, 1⟩
def TIL_MFAIL_TM : Fld := ⟨30, 1⟩
def TIL_MFAIL_ENG : Fld := ⟨26, 4⟩
def TIL_MFAIL_PBANK : Fld := ⟨21, 5⟩
def TIL_MFAIL_ROW : Fld := ⟨0, 12⟩
def TIL_REMAP_MAP : Fld := ⟨0, 30⟩
def TIL_MEMINJCTL_ARM : Fld := ⟨31, 1⟩
def TIL_MEMINJCTL_DSEL : Fld := ⟨8, 1⟩
def TIL_MEMINJCTL_FLIP : Fld := ⟨0, 8⟩
def TIL_SPR_V : Fld := ⟨31, 1⟩
def TIL_SPR_BAD : Fld := ⟨30, 1⟩
def TIL_SPR_ROW : Fld := ⟨0, 10⟩
def BLK_LIBSTAT_MREF : Fld := ⟨7, 1⟩
def BLK_LIBSTAT_REPNEW : Fld := ⟨6, 1⟩
def BLK_LIBSTAT_NOSPARE : Fld := ⟨5, 1⟩
def BLK_LIBSTAT_MFAIL : Fld := ⟨4, 1⟩
def BLK_LIBSTAT_MDONE : Fld := ⟨3, 1⟩
def BLK_LIBSTAT_UE : Fld := ⟨1, 1⟩
def BLK_LIBSTAT_CE : Fld := ⟨0, 1⟩
def BLK_LIBSTAT_OCE : Fld := ⟨2, 1⟩
def BLK_LIBCNT_CECNT : Fld := ⟨16, 16⟩
def BLK_LIBCNT_UECNT : Fld := ⟨0, 16⟩
def BLK_LIBSCRUB_EN : Fld := ⟨31, 1⟩
def BLK_LIBSCRUB_INT : Fld := ⟨0, 16⟩
def BLK_LIBMARCH_GO : Fld := ⟨31, 1⟩
def BLK_LIBMARCH_OP : Fld := ⟨28, 3⟩
def BLK_LIBMARCH_BANK : Fld := ⟨24, 4⟩
def BLK_LIBMARCH_ALLB : Fld := ⟨23, 1⟩
def BLK_LIBMARCH_ROW : Fld := ⟨0, 14⟩
def BLK_LIBMARCHST_BUSY : Fld := ⟨31, 1⟩
def BLK_LIBMARCHST_OP : Fld := ⟨28, 3⟩
def BLK_LIBMARCHST_RESULT : Fld := ⟨26, 2⟩
def BLK_LIBMARCHST_PROG : Fld := ⟨0, 16⟩
def BLK_LMFAIL_V : Fld := ⟨31, 1⟩
def BLK_LMFAIL_BANK : Fld := ⟨26, 4⟩
def BLK_LMFAIL_ROW : Fld := ⟨0, 14⟩
def BLK_LIBINJCTL_ARM : Fld := ⟨31, 1⟩
def BLK_LIBINJCTL_WORD : Fld := ⟨9, 4⟩
def BLK_LIBINJCTL_DSEL_FLIP : Fld := ⟨0, 9⟩
def BLK_LRP_V : Fld := ⟨31, 1⟩
def BLK_LRP_BAD : Fld := ⟨30, 1⟩
def BLK_LRP_ROW : Fld := ⟨0, 13⟩
def UC_VERSION_MAJOR : Fld := ⟨24, 8⟩
def UC_VERSION_MINOR : Fld := ⟨16, 8⟩
def UC_VERSION_BUILD : Fld := ⟨0, 16⟩
def UC_PATCH_LEVEL : Fld := ⟨16, 16⟩
def UC_PATCH_WORDS : Fld := ⟨0, 16⟩
def UC_GOLDV_BASE : Fld := ⟨6, 26⟩
def UC_GOLDF_BASE : Fld := ⟨6, 26⟩
def UC_CMD_OP : Fld := ⟨28, 4⟩
def UC_CMD_KIND : Fld := ⟨26, 2⟩
def UC_CMD_FIRST : Fld := ⟨15, 11⟩
def UC_CMD_LAST : Fld := ⟨4, 11⟩
def UC_MASK_MASK : Fld := ⟨0, 16⟩
def UC_STAT_BUSY : Fld := ⟨31, 1⟩
def UC_STAT_RESULT : Fld := ⟨29, 2⟩
def UC_STAT_GREF : Fld := ⟨3, 1⟩
def UC_STAT_CREF : Fld := ⟨2, 1⟩
def UC_STAT_WPPAR : Fld := ⟨1, 1⟩
def UC_ERR_V : Fld := ⟨31, 1⟩
def UC_ERR_KIND : Fld := ⟨29, 2⟩
def UC_ERR_ENG : Fld := ⟨25, 4⟩
def UC_ERR_ADDR : Fld := ⟨0, 11⟩
def UC_CNT_PERRCNT : Fld := ⟨16, 16⟩
def UC_CNT_FIXCNT : Fld := ⟨0, 16⟩
def RLY_ID_POSTCODE : Fld := ⟨0, 12⟩
def RLY_CTL_HOPS : Fld := ⟨24, 8⟩
def RLY_CTL_DROPTH : Fld := ⟨16, 8⟩
def RLY_CTL_RTMO : Fld := ⟨8, 8⟩
def RLY_CTL_QTMO : Fld := ⟨0, 8⟩
def RLY_SHARE_BEATS : Fld := ⟨0, 7⟩
def RLY_TIME_FWD : Fld := ⟨4, 4⟩
def RLY_TIME_INEN : Fld := ⟨3, 1⟩
def RLY_TIME_INPORT : Fld := ⟨0, 2⟩
def RLY_HOSTPC_HI : Fld := ⟨30, 2⟩
def RLY_HOSTPC_URG : Fld := ⟨29, 1⟩
def RLY_HOSTPC_POSTCODE : Fld := ⟨0, 12⟩
def RLY_RDSTAT_TMOCNT : Fld := ⟨16, 16⟩
def RLY_RDSTAT_OUTST : Fld := ⟨0, 7⟩
def RLY_INWIN_BASE_BASE : Fld := ⟨6, 26⟩
def RLY_INWIN_CTL_LIMIT : Fld := ⟨6, 26⟩
def RLY_INWIN_CTL_EN : Fld := ⟨5, 1⟩
def RLY_INWIN_CTL_R : Fld := ⟨4, 1⟩
def RLY_INWIN_CTL_W : Fld := ⟨3, 1⟩
def RLY_PCTL_TXAMP : Fld := ⟨16, 4⟩
def RLY_PCTL_TXPOST : Fld := ⟨12, 4⟩
def RLY_PCTL_TXPRE : Fld := ⟨8, 4⟩
def RLY_PCTL_RETRAIN : Fld := ⟨1, 1⟩
def RLY_PCTL_EN : Fld := ⟨0, 1⟩
def RLY_PSTAT_STATE : Fld := ⟨29, 3⟩
def RLY_PSTAT_PNR : Fld := ⟨28, 1⟩
def RLY_PSTAT_PEER : Fld := ⟨16, 12⟩
def RLY_PSTAT_LOOPBK : Fld := ⟨7, 1⟩
def RLY_PSTAT_CREDVIOL : Fld := ⟨6, 1⟩
def RLY_PSTAT_BADLET : Fld := ⟨5, 1⟩
def RLY_PSTAT_HOPDROP : Fld := ⟨4, 1⟩
def RLY_PSTAT_UNSENTF : Fld := ⟨3, 1⟩
def RLY_PSTAT_INREF : Fld := ⟨2, 1⟩
def RLY_PSTAT_RDTMO : Fld := ⟨1, 1⟩
def RLY_PSTAT_LOCKLOSS : Fld := ⟨0, 1⟩
def RLY_CRED_UCRED : Fld := ⟨24, 5⟩
def RLY_CRED_BCRED : Fld := ⟨16, 5⟩
def RLY_CRED_UFREE : Fld := ⟨8, 5⟩
def RLY_CRED_BFREE : Fld := ⟨0, 5⟩
def RLY_LAT_LAT : Fld := ⟨0, 16⟩
def RLY_CNT_CVCNT : Fld := ⟨24, 8⟩
def RLY_CNT_HOPCNT : Fld := ⟨16, 8⟩
def RLY_CNT_UNSENT : Fld := ⟨8, 8⟩
def RLY_CNT_BADCNT : Fld := ⟨0, 8⟩
def FLT_CTL_GRACE : Fld := ⟨16, 16⟩
def FLT_CTL_KTILE : Fld := ⟨8, 4⟩
def FLT_ACK_U : Fld := ⟨1, 1⟩
def FLT_ACK_C : Fld := ⟨0, 1⟩
def FLT_TEST_CLS : Fld := ⟨30, 2⟩
def FLT_TEST_DET : Fld := ⟨0, 16⟩
def FLT_FIRST_SRC_V : Fld := ⟨31, 1⟩
def FLT_FIRST_SRC_OVF : Fld := ⟨30, 1⟩
def FLT_FIRST_SRC_ESC : Fld := ⟨29, 1⟩
def FLT_FIRST_SRC_OCLS : Fld := ⟨16, 2⟩
def FLT_FIRST_SRC_SRCID : Fld := ⟨0, 16⟩
def FLT_CNT_UCNT : Fld := ⟨16, 16⟩
def FLT_CNT_CCNT : Fld := ⟨0, 16⟩
def FLT_FENCE_OP : Fld := ⟨28, 4⟩
def FLT_FENCE_KIND : Fld := ⟨24, 4⟩
def FLT_FENCE_INDEX : Fld := ⟨0, 18⟩
def FLT_FSTAT_INPAIR : Fld := ⟨2, 2⟩
def FLT_FSTAT_TREF : Fld := ⟨1, 1⟩
def FLT_FSTAT_FREF : Fld := ⟨0, 1⟩
def FLT_FTILE_FIGF : Fld := ⟨16, 12⟩
def FLT_FTILE_TILEF : Fld := ⟨0, 12⟩
def FLT_FPORT_RLYF : Fld := ⟨8, 4⟩
def FLT_FPORT_REELF : Fld := ⟨0, 8⟩
def FLT_INCFG_CLASS : Fld := ⟨0, 2⟩
def FLT_SAFE_STATE : Fld := ⟨1, 1⟩
def FLT_SAFE_FORCE : Fld := ⟨0, 1⟩
def BLK_WDOG_KEY : Fld := ⟨16, 16⟩
def BLK_WDOG_SEEN : Fld := ⟨0, 12⟩
def BLK_WDCFG_EN : Fld := ⟨31, 1⟩
def BLK_WDCFG_MASK : Fld := ⟨16, 12⟩
def BLK_WDCFG_RELOAD : Fld := ⟨0, 16⟩
def BLK_WDCNT_COUNT : Fld := ⟨0, 16⟩
def FLT_FENG_ENGF : Fld := ⟨0, 16⟩
def TIL_KCALL_COUNT : Fld := ⟨16, 16⟩
def TIL_KCALL_PEND : Fld := ⟨0, 1⟩
def TIL_WDCFG_RELOAD : Fld := ⟨16, 16⟩
def TIL_WDCFG_EN : Fld := ⟨0, 16⟩
def TIL_WDSVC_SVC : Fld := ⟨0, 1⟩
def TIL_WDEXP_EXP : Fld := ⟨0, 16⟩
def MRG_BLKV_STEPT : Fld := ⟨24, 8⟩
def MRG_BLKV_STBYV : Fld := ⟨16, 6⟩
def MRG_BLKV_FLOOR : Fld := ⟨8, 6⟩
def MRG_BLKV_VREQ : Fld := ⟨0, 6⟩
def MRG_STBY_SMODE : Fld := ⟨5, 3⟩
def MRG_STBY_SREF : Fld := ⟨4, 1⟩
def MRG_STBY_WAKEENC : Fld := ⟨3, 1⟩
def MRG_STBY_IN : Fld := ⟨2, 1⟩
def MRG_STBY_WAKE : Fld := ⟨1, 1⟩
def MRG_STBY_ENTER : Fld := ⟨0, 1⟩
def MRG_SWEEP_GO : Fld := ⟨31, 1⟩
def MRG_SWEEP_DUE : Fld := ⟨30, 1⟩
def MRG_SWEEP_BUSY : Fld := ⟨29, 1⟩
def MRG_SWEEP_TILE : Fld := ⟨25, 4⟩
def MRG_SWEEP_INT : Fld := ⟨8, 8⟩
def MRG_SWEEP_SINCE : Fld := ⟨0, 8⟩
def MRG_GUARD_G : Fld := ⟨24, 8⟩
def MRG_GUARD_LIVEG : Fld := ⟨16, 8⟩
def MRG_GUARD_TSTEP : Fld := ⟨12, 4⟩
def MRG_GUARD_MG : Fld := ⟨8, 4⟩
def MRG_GUARD_TJMAX : Fld := ⟨0, 8⟩
def MRG_AGE_NEXP : Fld := ⟨28, 4⟩
def MRG_LOGBASE_BASE : Fld := ⟨6, 26⟩
def MRG_LOGCTL_LEN : Fld := ⟨16, 16⟩
def MRG_LOGCTL_WP : Fld := ⟨0, 16⟩
def MRG_PAIR_VT : Fld := ⟨8, 6⟩
def MRG_PAIR_N : Fld := ⟨0, 6⟩
def MRG_TPLAN_AUTO : Fld := ⟨31, 1⟩
def MRG_TPLAN_EVENT : Fld := ⟨30, 1⟩
def MRG_TPLAN_NMIN : Fld := ⟨8, 6⟩
def MRG_TPLAN_NTGT : Fld := ⟨0, 6⟩
def MRG_TSTAT_SLEEP : Fld := ⟨29, 3⟩
def MRG_TSTAT_WORN : Fld := ⟨28, 1⟩
def MRG_TSTAT_LIVETRIP : Fld := ⟨27, 1⟩
def MRG_TSTAT_SAFECLK : Fld := ⟨26, 1⟩
def MRG_TSTAT_PWHOLD : Fld := ⟨25, 1⟩
def MRG_TSTAT_OFFREF : Fld := ⟨24, 1⟩
def MRG_TSTAT_TEMP : Fld := ⟨16, 8⟩
def MRG_TSTAT_DEG : Fld := ⟨0, 16⟩
def MRG_PROP_V : Fld := ⟨31, 1⟩
def MRG_PROP_VT : Fld := ⟨8, 6⟩
def MRG_PROP_N : Fld := ⟨0, 6⟩
def MRG_SLEEP_NAPEN : Fld := ⟨31, 1⟩
def MRG_SLEEP_NAPDLY : Fld := ⟨16, 15⟩
def MRG_SLEEP_DOZEDLY : Fld := ⟨0, 16⟩
def MRG_PWR_CMD : Fld := ⟨30, 2⟩
def MRG_CAN_SLACK : Fld := ⟨8, 5⟩
def MRG_ROSC_FSTR : Fld := ⟨16, 16⟩
def MRG_ROSC_FFRESH : Fld := ⟨0, 16⟩
def MRG_TAGE_BASEN : Fld := ⟨24, 8⟩
def MRG_TAGE_FCAST : Fld := ⟨0, 16⟩
def BLK_BOOTCTL_EXTBASE : Fld := ⟨12, 20⟩
def BLK_BOOTCTL_RESTART : Fld := ⟨2, 1⟩
def BLK_BOOTCTL_EXT : Fld := ⟨1, 1⟩
def BLK_BOOTCTL_GO : Fld := ⟨0, 1⟩
def BOOT_STRAP_STRAPS : Fld := ⟨0, 8⟩
def BOOT_STAT_STATE : Fld := ⟨28, 4⟩
def BOOT_STAT_BUS : Fld := ⟨26, 2⟩
def BOOT_STAT_SLOT : Fld := ⟨24, 2⟩
def BOOT_STAT_REASON : Fld := ⟨16, 8⟩
def BOOT_STAT_ATTEMPTS : Fld := ⟨8, 8⟩
def BOOT_STAT_KIND : Fld := ⟨6, 2⟩
def BOOT_STAT_REPIGN : Fld := ⟨2, 1⟩
def BOOT_STAT_CREF : Fld := ⟨1, 1⟩
def BOOT_KREADY_READY : Fld := ⟨0, 12⟩
def BOOT_TRSTAT_FAIL : Fld := ⟨12, 12⟩
def BOOT_TRSTAT_PEND : Fld := ⟨0, 12⟩
def DBG_CTL_WDHOLD : Fld := ⟨0, 1⟩
def DBG_STAT_MBUSY : Fld := ⟨2, 1⟩
def DBG_STAT_NOPEEK : Fld := ⟨1, 1⟩
def DBG_STAT_EXREF : Fld := ⟨0, 1⟩
def DBG_ECTL_STEP : Fld := ⟨2, 1⟩
def DBG_ECTL_CLRPEND : Fld := ⟨1, 1⟩
def DBG_ECTL_HALT : Fld := ⟨0, 1⟩
def DBG_ESTAT_INMON : Fld := ⟨31, 1⟩
def DBG_ESTAT_PEND : Fld := ⟨30, 1⟩
def DBG_ESTAT_FENCED : Fld := ⟨29, 1⟩
def DBG_ESTAT_NOCTX : Fld := ⟨28, 1⟩
def DBG_ESTAT_REASON : Fld := ⟨24, 4⟩
def DBG_ESTAT_TRG : Fld := ⟨22, 2⟩
def DBG_ESTAT_WTRG : Fld := ⟨20, 2⟩
def DBG_PB_STAT_OUTOVR : Fld := ⟨3, 1⟩
def DBG_PB_STAT_INOVR : Fld := ⟨2, 1⟩
def DBG_PB_STAT_OUTFULL : Fld := ⟨1, 1⟩
def DBG_PB_STAT_INFULL : Fld := ⟨0, 1⟩
def DBG_TCTL_MLVL : Fld := ⟨8, 3⟩
def DBG_TCTL_EN : Fld := ⟨0, 1⟩
def DBG_AC_CTL_EN : Fld := ⟨31, 1⟩
def DBG_AC_CTL_KIND : Fld := ⟨29, 2⟩
def DBG_AC_CTL_RANGE : Fld := ⟨28, 1⟩
def DBG_DC_CTL_EN : Fld := ⟨31, 1⟩
def DBG_DC_CTL_LINKA : Fld := ⟨28, 3⟩
def DBG_DC_CTL_NEG : Fld := ⟨27, 1⟩
def DBG_CC_EN : Fld := ⟨31, 1⟩
def DBG_CC_RINGS : Fld := ⟨27, 4⟩
def DBG_CC_MASK : Fld := ⟨12, 12⟩
def DBG_CC_CTXN : Fld := ⟨0, 12⟩
def DBG_TRG_CTL_EN : Fld := ⟨31, 1⟩
def DBG_TRG_CTL_ACTION : Fld := ⟨28, 3⟩
def DBG_TRG_CTL_SEQ : Fld := ⟨27, 1⟩
def DBG_TRG_CTL_PREV : Fld := ⟨25, 2⟩
def DBG_TRG_CTL_ARMED : Fld := ⟨24, 1⟩
def DBG_TRG_CTL_SEL : Fld := ⟨0, 14⟩
def DBG_TRG_ENG_BELL : Fld := ⟨16, 12⟩
def DBG_TRG_ENG_ENG : Fld := ⟨0, 16⟩
def DBG_TRG_CNT_RELOAD : Fld := ⟨16, 16⟩
def DBG_TRG_CNT_LEFT : Fld := ⟨0, 16⟩
def DBG_TPTR_COUNT : Fld := ⟨16, 16⟩
def DBG_TPTR_WP : Fld := ⟨0, 4⟩
def BLK_HPSTAT_OUTST : Fld := ⟨16, 4⟩
def BLK_HPSTAT_NRDY : Fld := ⟨1, 1⟩
def BLK_HPSTAT_ERRRSP : Fld := ⟨0, 1⟩
def BLK_MMCFG_BASE : Fld := ⟨23, 9⟩
def BLK_MMCFG_TMO : Fld := ⟨8, 8⟩
def BLK_MMCFG_EN : Fld := ⟨0, 1⟩
def BLK_MMSTAT_OUTR : Fld := ⟨24, 7⟩
def BLK_MMSTAT_OUTW : Fld := ⟨16, 5⟩
def BLK_MMSTAT_TMOCNT : Fld := ⟨8, 8⟩
def BLK_MMSTAT_STRAY : Fld := ⟨3, 1⟩
def BLK_MMSTAT_LATE : Fld := ⟨2, 1⟩
def BLK_MMSTAT_TMO : Fld := ⟨1, 1⟩
def BLK_MMSTAT_MERR : Fld := ⟨0, 1⟩
def CAL_CTX_CTL_STATE : Fld := ⟨28, 4⟩
def CAL_CTX_CTL_PRIO : Fld := ⟨24, 4⟩
def CAL_CTX_CTL_GEN : Fld := ⟨21, 3⟩
def CAL_CTX_CTL_ENG : Fld := ⟨17, 4⟩
def CAL_CTX_CTL_DFLT : Fld := ⟨16, 1⟩
def CAL_CTX_CTL_AFF : Fld := ⟨0, 16⟩
def CAL_CTX_XSAVE_ADDR : Fld := ⟨4, 28⟩
def CAL_CTX_XSAVE_XV : Fld := ⟨0, 1⟩
def CAL_CTX_EVENT_EVCNT : Fld := ⟨16, 16⟩
def CAL_CTX_EVENT_KIND : Fld := ⟨13, 3⟩
def CAL_CTX_EVENT_EOVF : Fld := ⟨12, 1⟩
def CAL_CTX_EVENT_SRC : Fld := ⟨0, 12⟩

end Sys2Proof.Machine.Bits
end

