-- ==== Sys2Proof/Machine/RegTable.lean ====
section
/-!
DEFINITION. The register maps as tables: one row per register or family of registers, with its offset and strides
(R8), its width (R11), its access masks (R9), its reset value (R13), the values an RW field takes (R12), who may write it,
and the name of the action that a read or a write of it has beyond its access codes.
-/

namespace Sys2Proof.Machine

/-- The unit whose map a register stands in (R679). -/
inductive RegUnit where
  | block | tile | reel | relay | debug
  deriving DecidableEq, Repr

/-- Who may write a register. The rows name the rule. -/
inductive RegPerm where
  /-- engines in ring 0, host, debug master (R171, R419, R446, R482, R503, R571, R609, R632, R682, R683) -/
  | r0
  /-- engines in ring 0 or 1, host, debug master (R96, R170, R247, R538) -/
  | r1
  /-- engines in ring 0 to 2, host, debug master (R247, R379) -/
  | r2
  /-- every initiator (R170, R427, R447) -/
  | all
  /-- BLK_MODE (R30): ring 0 and the debug master; ERR to the host -/
  | mode
  /-- engines of the tile in every ring; ERR to others (R379, R571) -/
  | tileEng
  /-- BLK_WDOG (R560): ring 0; ERR to host and debug master -/
  | wdog
  /-- BOOT_KDONE (R632): ERR to the host; ignored from anything but E0 in ring 0 -/
  | kdone
  /-- debug registers (R659): ring 0 and the debug master; ERR to the host -/
  | dbg
  /-- DBG_PB_INg (R659): the debug master alone -/
  | pbIn
  /-- DBG_PB_OUTg (R659): engine g in every ring -/
  | pbOut
  deriving DecidableEq, Repr

/-- What a register does beyond its access codes. -/
inductive RegAct where
  /-- nothing -/
  | plain
  | angCfg | blkMode | angCpr | angTime | angTimeset | angTrim | cmpCtl | cmpVal | cmpInc
  | cmpStat | angTtime | figCtl | figStat | commit | figTable | reelCtl | reelClose
  | reelExstat | reelExp | calStat | calCmd | calReady | calPark | tilVbase | blkDoorbell
  | dbdesc | tilDoorbell | tilPsum | claim | tilMarch | libMarch | ucGold | ucCmd
  | rlyRdstat | rlyPctl | fltAck | fltTest | fltFence | fltSafe | blkWdog | blkWdcfg
  | tilWdcfg | tilWdsvc | mrgStby | mrgSweep | mrgPwr | bootctl | kdone | dbgEctl
  | dbgEstat | pbIn | pbOut | pbStat | dbgAcCtl | trgCtl | trgEng | trgCnt
  | hpstat | mmstat | calCtx
  deriving DecidableEq, Repr

/-- The values that an RW field takes: `min` to `max` (R12). -/
structure Limit where
  lo : Nat
  w : Nat
  min : Nat
  max : Nat
  deriving DecidableEq, Repr

/-- One row of a register map. -/
structure RegRow where
  name : String
  /-- offset in the unit of the first register of the family -/
  off : Nat
  /-- stride and count of the first index -/
  s1 : Nat := 0
  n1 : Nat := 1
  /-- stride and count of the second index -/
  s2 : Nat := 0
  n2 : Nat := 1
  /-- a 64-bit register -/
  wide : Bool := false
  /-- the RW, W1C and RC bits; every other bit is RO, WO or reserved -/
  rw : Nat := 0
  w1c : Nat := 0
  rc : Nat := 0
  reset : Nat := 0
  perm : RegPerm := .r0
  /-- the register belongs to a commit group with a shadow copy (R38) -/
  group : Bool := false
  act : RegAct := .plain
  limits : List Limit := []
  deriving DecidableEq, Repr

/-- Registers of the block map, part 0, by offset. -/
def blockRows0 : List RegRow := [
  { name := "BLK_ID", off := 0x0, reset := 0xC00201, perm := .mode },
  { name := "BLK_MODE", off := 0x4, rw := 0x7, w1c := 0x100, perm := .mode, act := .blkMode },
  { name := "BLK_BOOTCTL", off := 0x8, rw := 0xFFFFF000, perm := .r0, act := .bootctl, limits := [⟨12, 20, 262144, 0xBFFFF⟩] },
  { name := "BLK_HPSTAT", off := 0x100, w1c := 0x3, perm := .r0, act := .hpstat },
  { name := "BLK_MMCFG", off := 0x110, rw := 0xFF80FF01, reset := 0x6400, perm := .r0, limits := [⟨8, 8, 1, 0xFF⟩] },
  { name := "BLK_MMSTAT", off := 0x114, w1c := 0xF, rc := 0xFF00, perm := .r0, act := .mmstat },
  { name := "BLK_DOORBELL", off := 0x800, perm := .all, act := .blkDoorbell },
  { name := "BLK_DBSTAT", off := 0x804, w1c := 0x3F, perm := .r0 },
  { name := "ANG_CTL", off := 0x1000, rw := 0xF, reset := 0xF, perm := .r0 },
  { name := "ANG_CFG", off := 0x1100, s1 := 0x40, n1 := 4, rw := 0x1FF3, perm := .r0, act := .angCfg, limits := [⟨6, 2, 0, 1⟩] },
  { name := "ANG_CPR", off := 0x1104, s1 := 0x40, n1 := 4, rw := 0x1FFFFF, perm := .r0, act := .angCpr, limits := [⟨0, 21, 4, 0x100000⟩] },
  { name := "ANG_ZOFF", off := 0x1108, s1 := 0x40, n1 := 4, rw := 0xFFFFF, perm := .r0 },
  { name := "ANG_SSI", off := 0x110C, s1 := 0x40, n1 := 4, rw := 0xFFFF3F1F, perm := .r0, limits := [⟨24, 8, 1, 0xFF⟩, ⟨16, 8, 49, 0xFF⟩, ⟨8, 4, 0, 0xC⟩, ⟨0, 5, 8, 0x18⟩] },
  { name := "ANG_ANGLE", off := 0x1110, s1 := 0x40, n1 := 4, perm := .r0 },
  { name := "ANG_VEL", off := 0x1114, s1 := 0x40, n1 := 4, perm := .r0 },
  { name := "ANG_COUNT", off := 0x1118, s1 := 0x40, n1 := 4, perm := .r0 },
  { name := "ANG_ZERR", off := 0x111C, s1 := 0x40, n1 := 4, rw := 0xFFFF0000, perm := .r0 },
  { name := "ANG_STILLT", off := 0x1120, s1 := 0x40, n1 := 4, rw := 0xFFFF, perm := .r0, limits := [⟨0, 16, 1, 0xFFFF⟩] },
  { name := "ANG_STAT", off := 0x1124, s1 := 0x40, n1 := 4, w1c := 0xF0, reset := 0x1, perm := .r0 },
  { name := "ANG_TIME", off := 0x1200, wide := true, perm := .r0, act := .angTime }]

/-- Registers of the block map, part 1, by offset. -/
def blockRows1 : List RegRow := [
  { name := "ANG_TIMESET", off := 0x1208, wide := true, perm := .r0, act := .angTimeset },
  { name := "ANG_TRIM", off := 0x1210, rw := 0xFFFFFFFF, perm := .r0, act := .angTrim },
  { name := "ANG_BCCTL", off := 0x1214, rw := 0xFFFF0003, perm := .r0, limits := [⟨24, 8, 1, 0xFF⟩, ⟨16, 8, 1, 0xFF⟩, ⟨0, 2, 0, 2⟩] },
  { name := "ANG_BCERR", off := 0x1218, perm := .r0 },
  { name := "BLK_LIBSTAT", off := 0x3000, w1c := 0xFF, perm := .r0 },
  { name := "BLK_LIBCNT", off := 0x3004, rc := 0xFFFFFFFF, perm := .r0 },
  { name := "BLK_LIBCEADDR", off := 0x3008, perm := .r0 },
  { name := "BLK_LIBUEADDR", off := 0x300C, perm := .r0 },
  { name := "BLK_LIBSCRUB", off := 0x3010, rw := 0x8000FFFF, perm := .r0, limits := [⟨0, 16, 1, 0xFFFF⟩] },
  { name := "BLK_LIBSCRUBPASS", off := 0x3014, perm := .r0 },
  { name := "BLK_LIBMARCH", off := 0x3018, perm := .r0, act := .libMarch },
  { name := "BLK_LIBMARCHST", off := 0x301C, perm := .r0 },
  { name := "BLK_LMFAIL", off := 0x3020, s1 := 0x4, n1 := 16, perm := .r0 },
  { name := "BLK_LIBINJ", off := 0x3080, rw := 0xFFFFFFFF, perm := .r0 },
  { name := "BLK_LIBINJCTL", off := 0x3084, rw := 0x80001FFF, perm := .r0, limits := [⟨9, 4, 0, 8⟩] },
  { name := "BLK_LRP", off := 0x3100, s1 := 0x40, n1 := 16, s2 := 0x4, n2 := 16, perm := .r0 },
  { name := "FLT_CTL", off := 0x4000, rw := 0xFFFF0F00, perm := .r0, limits := [⟨16, 16, 1, 0xFFFF⟩, ⟨8, 4, 0, 0xB⟩] },
  { name := "FLT_ACK", off := 0x4004, perm := .r0, act := .fltAck },
  { name := "FLT_TEST", off := 0x4008, perm := .r0, act := .fltTest },
  { name := "FLT_FIRST_SRC", off := 0x4010, s1 := 0x10, n1 := 3, perm := .r0 }]

/-- Registers of the block map, part 2, by offset. -/
def blockRows2 : List RegRow := [
  { name := "FLT_FIRST_DET", off := 0x4014, s1 := 0x10, n1 := 3, perm := .r0 },
  { name := "FLT_FIRST_TIME", off := 0x4018, s1 := 0x10, n1 := 3, wide := true, perm := .r0 },
  { name := "FLT_CNT", off := 0x4040, rc := 0xFFFFFFFF, perm := .r0 },
  { name := "FLT_FENCE", off := 0x4044, perm := .r0, act := .fltFence },
  { name := "FLT_FSTAT", off := 0x4048, w1c := 0x3, perm := .r0 },
  { name := "FLT_FTILE", off := 0x404C, perm := .r0 },
  { name := "FLT_FPORT", off := 0x4050, perm := .r0 },
  { name := "FLT_INCFG", off := 0x4054, rw := 0x3, reset := 0x3, perm := .r0 },
  { name := "FLT_SAFE", off := 0x4058, rw := 0x1, reset := 0x2, perm := .r0, act := .fltSafe },
  { name := "BLK_WDOG", off := 0x4060, perm := .wdog, act := .blkWdog },
  { name := "BLK_WDCFG", off := 0x4064, rw := 0x8FFFFFFF, perm := .r0, act := .blkWdcfg, limits := [⟨0, 16, 1, 0xFFFF⟩] },
  { name := "BLK_WDCNT", off := 0x4068, perm := .r0 },
  { name := "FLT_FENG", off := 0x4080, s1 := 0x4, n1 := 12, perm := .r0 },
  { name := "FLT_FNODE", off := 0x4100, s1 := 0x8, n1 := 8, wide := true, perm := .r0 },
  { name := "MRG_BLKV", off := 0x5000, rw := 0xFF3F3F00, reset := 0x1E, perm := .r0, limits := [⟨24, 8, 1, 0xFF⟩, ⟨16, 6, 0, 0x32⟩, ⟨8, 6, 20, 0x32⟩] },
  { name := "MRG_STBY", off := 0x5004, rw := 0x8, w1c := 0x10, perm := .r0, act := .mrgStby },
  { name := "MRG_RUNTIME", off := 0x5008, perm := .r0 },
  { name := "MRG_SWEEP", off := 0x500C, rw := 0xFF00, perm := .r0, act := .mrgSweep, limits := [⟨8, 8, 1, 0xFF⟩] },
  { name := "MRG_GUARD", off := 0x5010, rw := 0xFFFFFFFF, perm := .r0, limits := [⟨24, 8, 0, 0x1F⟩, ⟨16, 8, 0, 0x1F⟩] },
  { name := "MRG_AGE", off := 0x5014, rw := 0xF0000000, perm := .r0, limits := [⟨28, 4, 1, 0xF⟩] }]

/-- Registers of the block map, part 3, by offset. -/
def blockRows3 : List RegRow := [
  { name := "MRG_LOGBASE", off := 0x5018, rw := 0xFFFFFFC0, perm := .r0, limits := [⟨6, 26, 8388608, 0x81FFFF⟩] },
  { name := "MRG_LOGCTL", off := 0x501C, rw := 0xFFFF0000, perm := .r0, limits := [⟨16, 16, 1, 0xFFFF⟩] },
  { name := "BOOT_STRAP", off := 0x6000, perm := .all },
  { name := "BOOT_STAT", off := 0x6004, w1c := 0x6, perm := .all },
  { name := "BOOT_TIME", off := 0x6008, perm := .all },
  { name := "BOOT_IMGID", off := 0x600C, perm := .all },
  { name := "BOOT_FSIZE", off := 0x6010, perm := .all },
  { name := "BOOT_KDONE", off := 0x6014, perm := .kdone, act := .kdone },
  { name := "BOOT_KREADY", off := 0x6018, perm := .all },
  { name := "BOOT_TRSTAT", off := 0x601C, w1c := 0xFFF000, perm := .all },
  { name := "BOOT_ANCHOR", off := 0x6020, s1 := 0x4, n1 := 8, perm := .all },
  { name := "BLK_DBDESC", off := 0x20000, s1 := 0x8, n1 := 4095, wide := true, rw := 0xFEF001FF0000FFFF, perm := .r0, act := .dbdesc }]

/-- The block map. -/
def blockRows : List RegRow := blockRows0 ++ blockRows1 ++ blockRows2 ++ blockRows3

/-- Registers of the tile map, part 0, by offset. -/
def tileRows0 : List RegRow := [
  { name := "ANG_CMP_CTL", off := 0x4000, s1 := 0x10, n1 := 16, rw := 0xFF8001FF, perm := .r1, act := .cmpCtl, limits := [⟨29, 2, 0, 2⟩, ⟨27, 2, 0, 2⟩] },
  { name := "ANG_CMP_VAL", off := 0x4004, s1 := 0x10, n1 := 16, rw := 0xFFFFFFFF, perm := .r1, act := .cmpVal },
  { name := "ANG_CMP_INC", off := 0x4008, s1 := 0x10, n1 := 16, rw := 0xFFFFFFFF, perm := .r1, act := .cmpInc, limits := [⟨0, 32, 0, 0x7FFFFFFF⟩] },
  { name := "ANG_CMP_STAT", off := 0x400C, s1 := 0x10, n1 := 16, w1c := 0x7, rc := 0xFFFF0000, perm := .r1, act := .cmpStat },
  { name := "ANG_WAKE", off := 0x4100, rw := 0xFFFF, perm := .r1 },
  { name := "ANG_PWCNT", off := 0x4104, rc := 0xFFFFFFFF, perm := .r1 },
  { name := "ANG_TTIME", off := 0x4108, wide := true, perm := .r1, act := .angTtime },
  { name := "FIG_CTL", off := 0x5000, perm := .r1, act := .figCtl },
  { name := "FIG_STAT", off := 0x5004, reset := 0xFF0000, perm := .r1, act := .figStat },
  { name := "FIG_RESUME", off := 0x5008, perm := .r1 },
  { name := "FIG_FADDR", off := 0x500C, perm := .r1 },
  { name := "FIG_STEPLIM", off := 0x5010, rw := 0xFFFFFF, perm := .r1, limits := [⟨0, 24, 1, 0xFFFFFF⟩] },
  { name := "FIG_FMT_COMMIT", off := 0x5040, w1c := 0x20, perm := .r1, act := .commit },
  { name := "FIG_TKSTAT", off := 0x5080, s1 := 0x4, n1 := 16, perm := .r1 },
  { name := "FIG_TKDP", off := 0x50C0, s1 := 0x4, n1 := 16, perm := .r1 },
  { name := "FIG_FMT", off := 0x5100, s1 := 0x4, n1 := 16, rw := 0xFFFFF800, perm := .r1, group := true },
  { name := "FIG_MAP", off := 0x5400, s1 := 0x4, n1 := 256, rw := 0xE0007FFF, perm := .r1 },
  { name := "FIG_LUT", off := 0x6000, s1 := 0x400, n1 := 4, s2 := 0x4, n2 := 256, rw := 0xFFFF, perm := .r1, act := .figTable },
  { name := "FIG_P", off := 0x7000, s1 := 0x80, n1 := 8, s2 := 0x4, n2 := 32, rw := 0xFFFFFFFF, perm := .all, act := .figTable },
  { name := "CAL_CTX_CTL", off := 0x8000, s1 := 0x20, n1 := 512, rw := 0xF00FFFF, perm := .r0, act := .calCtx }]

/-- Registers of the tile map, part 1, by offset. -/
def tileRows1 : List RegRow := [
  { name := "CAL_CTX_TSBP", off := 0x8004, s1 := 0x20, n1 := 512, rw := 0xFFFFFFFF, perm := .r0, act := .calCtx },
  { name := "CAL_CTX_DSLIM", off := 0x8008, s1 := 0x20, n1 := 512, rw := 0xFFFFFFFF, perm := .r0, act := .calCtx },
  { name := "CAL_CTX_RSLIM", off := 0x800C, s1 := 0x20, n1 := 512, rw := 0xFFFFFFFF, perm := .r0, act := .calCtx },
  { name := "CAL_CTX_XSAVE", off := 0x8010, s1 := 0x20, n1 := 512, rw := 0xFFFFFFF1, perm := .r0, act := .calCtx },
  { name := "CAL_CTX_EVENT", off := 0x8014, s1 := 0x20, n1 := 512, w1c := 0x1000, perm := .r0, act := .calCtx },
  { name := "CAL_CTX_DFADDR", off := 0x8018, s1 := 0x20, n1 := 512, perm := .r0, act := .calCtx },
  { name := "CAL_CTX_READYT", off := 0x801C, s1 := 0x20, n1 := 512, perm := .r0, act := .calCtx },
  { name := "CAL_CTL", off := 0xC000, rw := 0xFFFF, perm := .r0 },
  { name := "CAL_STAT", off := 0xC004, w1c := 0x7, perm := .r0, act := .calStat },
  { name := "CAL_LOSTEV", off := 0xC008, rc := 0xFFFF, perm := .r0 },
  { name := "CAL_CMD", off := 0xC00C, perm := .r0, act := .calCmd },
  { name := "CAL_READY", off := 0xC010, perm := .r2, act := .calReady },
  { name := "CAL_PARK", off := 0xC014, perm := .tileEng, act := .calPark },
  { name := "CAL_ENG", off := 0xC040, s1 := 0x4, n1 := 16, perm := .r0 },
  { name := "TIL_VBASE", off := 0xD000, rw := 0xFFFFF800, perm := .r0, act := .tilVbase },
  { name := "TIL_FIRMLIM", off := 0xD004, rw := 0x7FF, perm := .r0, limits := [⟨0, 11, 0, 0x400⟩] },
  { name := "TIL_XRES", off := 0xD008, rw := 0x3F3F, perm := .r0 },
  { name := "TIL_LGSTAT", off := 0xD00C, w1c := 0xFFFF, perm := .r0 },
  { name := "ENG_LG", off := 0xD400, s1 := 0x40, n1 := 16, s2 := 0x4, n2 := 16, perm := .r0 },
  { name := "TIL_GATE_PC", off := 0xD800, s1 := 0x8, n1 := 256, rw := 0xFFFFFFFF, perm := .r0 }]

/-- Registers of the tile map, part 2, by offset. -/
def tileRows2 : List RegRow := [
  { name := "TIL_GATE_CTL", off := 0xD804, s1 := 0x8, n1 := 256, rw := 0x8000000F, perm := .r0 },
  { name := "TIL_DOORBELL", off := 0xE000, perm := .all, act := .tilDoorbell },
  { name := "TIL_PEND", off := 0xE100, s1 := 0x8, n1 := 64, wide := true, perm := .all },
  { name := "TIL_PSUM", off := 0xE300, wide := true, perm := .all, act := .tilPsum },
  { name := "TIL_REP", off := 0xE400, s1 := 0x8, n1 := 64, wide := true, perm := .all },
  { name := "TIL_MEMSTAT", off := 0xF000, w1c := 0xFB, perm := .r0 },
  { name := "TIL_MEMCNT", off := 0xF004, rc := 0xFFFFFFFF, perm := .r0 },
  { name := "TIL_MEMCEADDR", off := 0xF008, perm := .r0 },
  { name := "TIL_MEMUEADDR", off := 0xF00C, perm := .r0 },
  { name := "TIL_SCRUB", off := 0xF010, rw := 0x8000FFFF, perm := .r0, limits := [⟨0, 16, 1, 0xFFFF⟩] },
  { name := "TIL_SCRUBPASS", off := 0xF014, perm := .r0 },
  { name := "TIL_MARCH", off := 0xF018, perm := .r0, act := .tilMarch },
  { name := "TIL_MARCHST", off := 0xF01C, perm := .r0 },
  { name := "TIL_MFAIL", off := 0xF020, s1 := 0x4, n1 := 16, perm := .r0 },
  { name := "TIL_REMAP", off := 0xF060, s1 := 0x4, n1 := 6, perm := .r0 },
  { name := "TIL_MEMINJ", off := 0xF080, rw := 0xFFFFFFFF, perm := .r0 },
  { name := "TIL_MEMINJCTL", off := 0xF084, rw := 0x800001FF, perm := .r0 },
  { name := "TIL_SPR", off := 0xF100, s1 := 0x40, n1 := 16, s2 := 0x4, n2 := 16, perm := .r0 },
  { name := "TIL_CLAIM", off := 0x10000, s1 := 0x4, n1 := 4096, perm := .all, act := .claim },
  { name := "MRG_PAIR", off := 0x14000, rw := 0x3F3F, perm := .r0, group := true }]

/-- Registers of the tile map, part 3, by offset. -/
def tileRows3 : List RegRow := [
  { name := "MRG_PAIR_COMMIT", off := 0x14004, w1c := 0x20, perm := .r0, act := .commit },
  { name := "MRG_TPLAN", off := 0x14008, rw := 0xC0003F3F, perm := .r0, limits := [⟨8, 6, 24, 0x30⟩, ⟨0, 6, 24, 0x30⟩] },
  { name := "MRG_TSTAT", off := 0x1400C, w1c := 0x19000000, reset := 0x60000000, perm := .r0 },
  { name := "MRG_PROP", off := 0x14010, perm := .r0 },
  { name := "MRG_SLEEP", off := 0x14014, rw := 0xFFFFFFFF, perm := .r0 },
  { name := "MRG_PWR", off := 0x14018, perm := .r0, act := .mrgPwr },
  { name := "MRG_CAN", off := 0x14020, s1 := 0x4, n1 := 4, perm := .r0 },
  { name := "MRG_ROSC", off := 0x14030, perm := .r0 },
  { name := "MRG_TAGE", off := 0x14034, rw := 0xFF000000, reset := 0xFFFF, perm := .r0 },
  { name := "UC_VERSION", off := 0x15000, perm := .r0 },
  { name := "UC_PATCH", off := 0x15004, rw := 0xFFFFFFFF, perm := .r0 },
  { name := "UC_GOLDV", off := 0x15008, rw := 0xFFFFFFC0, perm := .r0, act := .ucGold, limits := [⟨6, 26, 8388608, 0x81FFFF⟩] },
  { name := "UC_GOLDF", off := 0x1500C, rw := 0xFFFFFFC0, perm := .r0, act := .ucGold, limits := [⟨6, 26, 8388608, 0x81FFFF⟩] },
  { name := "UC_CMD", off := 0x15010, perm := .r0, act := .ucCmd },
  { name := "UC_MASK", off := 0x15014, rw := 0xFFFF, perm := .r0 },
  { name := "UC_STAT", off := 0x15018, w1c := 0xE, perm := .r0 },
  { name := "UC_ERR", off := 0x1501C, w1c := 0x80000000, perm := .r0 },
  { name := "UC_CNT", off := 0x15020, rc := 0xFFFFFFFF, perm := .r0 },
  { name := "TIL_KCALL", off := 0x16000, w1c := 0x1, rc := 0xFFFF0000, perm := .r0 },
  { name := "TIL_WDCFG", off := 0x16004, rw := 0xFFFFFFFF, perm := .r0, act := .tilWdcfg, limits := [⟨16, 16, 1, 0xFFFF⟩] }]

/-- Registers of the tile map, part 4, by offset. -/
def tileRows4 : List RegRow := [
  { name := "TIL_WDSVC", off := 0x16008, perm := .tileEng, act := .tilWdsvc },
  { name := "TIL_WDEXP", off := 0x1600C, w1c := 0xFFFF, perm := .r0 }]

/-- The tile map. -/
def tileRows : List RegRow := tileRows0 ++ tileRows1 ++ tileRows2 ++ tileRows3 ++ tileRows4

/-- Registers of the reel map, part 0, by offset. -/
def reelRows0 : List RegRow := [
  { name := "REEL_CTL", off := 0x0, rw := 0xFF00000B, perm := .r1, act := .reelCtl, limits := [⟨24, 8, 1, 0xC8⟩] },
  { name := "REEL_STAT", off := 0x4, w1c := 0x1FFF, perm := .r1 },
  { name := "REEL_PER", off := 0x8, rw := 0x8001FFFF, perm := .r1, group := true },
  { name := "REEL_FIRE", off := 0xC, rw := 0xFFFF, perm := .r1, group := true },
  { name := "REEL_APHASE", off := 0x10, rw := 0xFFFFFFFF, perm := .r1, group := true },
  { name := "REEL_AINC", off := 0x14, rw := 0xFFFFFFFF, perm := .r1, group := true },
  { name := "REEL_COMMIT", off := 0x18, w1c := 0x20, perm := .r1, act := .commit },
  { name := "REEL_CYCLE", off := 0x1C, perm := .r1 },
  { name := "REEL_RETCYC", off := 0x20, perm := .r1 },
  { name := "REEL_LOOP", off := 0x24, perm := .r1 },
  { name := "REEL_CLOSE", off := 0x28, perm := .r2, act := .reelClose },
  { name := "REEL_EXSTAT", off := 0x2C, rc := 0xFFFF00, reset := 0x80, perm := .r1, act := .reelExstat },
  { name := "REEL_EXP", off := 0x30, wide := true, perm := .r2, act := .reelExp },
  { name := "REEL_CNT", off := 0x38, rc := 0xFFFFFFFF, perm := .r1 },
  { name := "REEL_ERRPOS", off := 0x3C, perm := .r1 },
  { name := "REEL_CLOSED", off := 0x40, wide := true, perm := .r1 },
  { name := "REEL_RETOK", off := 0x48, wide := true, perm := .r1 },
  { name := "REEL_EXDROP", off := 0x50, rc := 0xFFFF, perm := .r1 },
  { name := "REEL_SLOT", off := 0x100, s1 := 0x4, n1 := 64, rw := 0x800000FF, perm := .r1, group := true },
  { name := "REEL_NODE", off := 0x400, s1 := 0x10, n1 := 64, s2 := 0x4, n2 := 4, perm := .r1 }]

/-- The reel map. -/
def reelRows : List RegRow := reelRows0

/-- Registers of the relay map, part 0, by offset. -/
def relayRows0 : List RegRow := [
  { name := "RLY_ID", off := 0x0, rw := 0xFFF, perm := .r1 },
  { name := "RLY_CTL", off := 0x4, rw := 0xFFFFFFFF, perm := .r1, limits := [⟨24, 8, 1, 0xFF⟩, ⟨16, 8, 1, 0xFF⟩, ⟨8, 8, 1, 0xFF⟩, ⟨0, 8, 1, 0xFF⟩] },
  { name := "RLY_SHARE", off := 0x8, rw := 0x7F, perm := .r1, limits := [⟨0, 7, 1, 0x40⟩] },
  { name := "RLY_TIME", off := 0xC, rw := 0xFB, perm := .r1 },
  { name := "RLY_HOSTPC", off := 0x10, rw := 0xE0000FFF, perm := .r1 },
  { name := "RLY_RDSTAT", off := 0x14, rc := 0xFFFF0000, perm := .r1, act := .rlyRdstat },
  { name := "RLY_INWIN_BASE", off := 0x20, s1 := 0x8, n1 := 4, rw := 0xFFFFFFC0, perm := .r1 },
  { name := "RLY_INWIN_CTL", off := 0x24, s1 := 0x8, n1 := 4, rw := 0xFFFFFFF8, perm := .r1 },
  { name := "RLY_ROUTE_COMMIT", off := 0x80, w1c := 0x20, perm := .r1, act := .commit },
  { name := "RLY_PCTL", off := 0x100, s1 := 0x40, n1 := 4, rw := 0xFFF01, perm := .r1, act := .rlyPctl },
  { name := "RLY_PSTAT", off := 0x104, s1 := 0x40, n1 := 4, w1c := 0xFF, perm := .r1 },
  { name := "RLY_CRED", off := 0x108, s1 := 0x40, n1 := 4, reset := 0x1010, perm := .r1 },
  { name := "RLY_LAT", off := 0x10C, s1 := 0x40, n1 := 4, perm := .r1 },
  { name := "RLY_CNT", off := 0x110, s1 := 0x40, n1 := 4, rc := 0xFFFFFFFF, perm := .r1 },
  { name := "RLY_RTBLK", off := 0x1000, s1 := 0x4, n1 := 512, rw := 0xFFFFFFFF, perm := .r1, group := true }]

/-- The relay map. -/
def relayRows : List RegRow := relayRows0

/-- Registers of the debug map, part 0, by offset. -/
def debugRows0 : List RegRow := [
  { name := "DBG_CTL", off := 0x0, rw := 0x1, perm := .dbg },
  { name := "DBG_STAT", off := 0x4, w1c := 0x3, perm := .dbg },
  { name := "DBG_ECTL", off := 0x100, s1 := 0x10, n1 := 192, rw := 0x4, perm := .dbg, act := .dbgEctl },
  { name := "DBG_ESTAT", off := 0x104, s1 := 0x10, n1 := 192, perm := .dbg, act := .dbgEstat },
  { name := "DBG_EHIT", off := 0x108, s1 := 0x10, n1 := 192, perm := .dbg },
  { name := "DBG_PB_IN", off := 0x1000, s1 := 0x10, n1 := 192, perm := .pbIn, act := .pbIn },
  { name := "DBG_PB_OUT", off := 0x1004, s1 := 0x10, n1 := 192, rw := 0xFFFFFFFF, perm := .pbOut, act := .pbOut },
  { name := "DBG_PB_STAT", off := 0x1008, s1 := 0x10, n1 := 192, w1c := 0xE, perm := .dbg, act := .pbStat },
  { name := "DBG_TCTL", off := 0x2000, s1 := 0x200, n1 := 12, rw := 0x701, reset := 0x200, perm := .dbg, limits := [⟨8, 3, 0, 4⟩] },
  { name := "DBG_AC_ADDR", off := 0x2010, s1 := 0x200, n1 := 12, s2 := 0x8, n2 := 8, rw := 0xFFFFFFFF, perm := .dbg },
  { name := "DBG_AC_CTL", off := 0x2014, s1 := 0x200, n1 := 12, s2 := 0x8, n2 := 8, rw := 0xF0000000, perm := .dbg, act := .dbgAcCtl },
  { name := "DBG_DC_VAL", off := 0x2050, s1 := 0x200, n1 := 12, s2 := 0x10, n2 := 4, rw := 0xFFFFFFFF, perm := .dbg },
  { name := "DBG_DC_MASK", off := 0x2054, s1 := 0x200, n1 := 12, s2 := 0x10, n2 := 4, rw := 0xFFFFFFFF, perm := .dbg },
  { name := "DBG_DC_CTL", off := 0x2058, s1 := 0x200, n1 := 12, s2 := 0x10, n2 := 4, rw := 0xF8000000, perm := .dbg },
  { name := "DBG_CC", off := 0x2090, s1 := 0x200, n1 := 12, s2 := 0x4, n2 := 2, rw := 0xF8FFFFFF, perm := .dbg },
  { name := "DBG_TRG_CTL", off := 0x20A0, s1 := 0x200, n1 := 12, s2 := 0x10, n2 := 4, rw := 0xFE003FFF, perm := .dbg, act := .trgCtl, limits := [⟨28, 3, 0, 4⟩] },
  { name := "DBG_TRG_ENG", off := 0x20A4, s1 := 0x200, n1 := 12, s2 := 0x10, n2 := 4, rw := 0xFFFFFFF, perm := .dbg, act := .trgEng, limits := [⟨16, 12, 1024, 0xFFE⟩] },
  { name := "DBG_TRG_CNT", off := 0x20A8, s1 := 0x200, n1 := 12, s2 := 0x10, n2 := 4, rw := 0xFFFF0000, perm := .dbg, act := .trgCnt },
  { name := "DBG_TPTR", off := 0x20E0, s1 := 0x200, n1 := 12, rc := 0xFFFF0000, perm := .dbg },
  { name := "DBG_TMARK", off := 0x2100, s1 := 0x200, n1 := 12, s2 := 0x4, n2 := 64, perm := .dbg }]

/-- The debug map. -/
def debugRows : List RegRow := debugRows0

/-- The rows of a unit. -/
def RegUnit.rows : RegUnit → List RegRow
  | .block => blockRows
  | .tile => tileRows
  | .reel => reelRows
  | .relay => relayRows
  | .debug => debugRows

/-- The register that an address names: its row, its unit's number (tile or reel), its indices, whether the address
is its shadow view (R39), and the address of its active copy. -/
structure RegRef where
  row : RegRow
  unit : Nat
  i : Nat
  j : Nat
  view : Bool
  adr : Nat
  deriving DecidableEq, Repr

/-- The indices at which a row places a register at offset `o`. -/
def RegRow.place (r : RegRow) (o : Nat) : Option (Nat × Nat) :=
  if o < r.off then none
  else
    let d := o - r.off
    let i := if r.n1 = 1 then 0 else d / r.s1
    let j := if r.n2 = 1 then 0 else (d - r.s1 * i) / r.s2
    if i < r.n1 ∧ j < r.n2 ∧ d = r.s1 * i + r.s2 * j then some (i, j) else none

/-- The first row of a map that places a register at offset `o`. -/
def findRow : List RegRow → Nat → Option (RegRow × Nat × Nat)
  | [], _ => none
  | r :: rest, o =>
    match r.place o with
    | some (i, j) => some (r, i, j)
    | none => findRow rest o

/-- The unit of a register range, its number and the offset in it (R679). The offset is that of the 1 MiB range; a
reel's registers stand at `n × 0x1000` of the hub's. -/
def regUnitOf (a : Nat) : Option (RegUnit × Nat × Nat) :=
  let page := a / 0x100000
  let o := a % 0x100000
  if page = 0x300 then some (.block, 0, o)
  else if 0x310 ≤ page ∧ page < 0x31C then some (.tile, page - 0x310, o)
  else if page = 0x320 then
    if o % 0x80000 < 0x8000 then some (.reel, o % 0x80000 / 0x1000, o % 0x1000 + o / 0x80000 * 0x80000) else none
  else if page = 0x330 then some (.relay, 0, o)
  else if page = 0x340 then some (.debug, 0, o)
  else none

/-- The register that an address names, if any (R680). -/
def regRef (a : Nat) : Option RegRef :=
  match regUnitOf a with
  | none => none
  | some (u, n, o) =>
    match findRow u.rows (o % 0x80000) with
    | none => none
    | some (r, i, j) =>
      some { row := r, unit := n, i := i, j := j, view := o / 0x80000 = 1, adr := a - o / 0x80000 * 0x80000 }

/-- Whether an address lies in a register range (R679). -/
def inRegSpace (a : Nat) : Bool := 0x30000000 ≤ a && a < 0x40000000

/-- The value that a register has at reset (R13). -/
def regReset (a : Nat) : DWord :=
  match regRef a with
  | some r => BitVec.ofNat 64 r.row.reset
  | none => 0

/-- The RW bits that a written value changes: those of the fields whose new value the table defines (R12). -/
def Limit.allows (l : Limit) (v : Nat) : Bool := l.min ≤ getBits v l.lo l.w && getBits v l.lo l.w ≤ l.max

/-- A written value with each field outside its set put back to the old value (R12). -/
def applyLimits (limits : List Limit) (old v : Nat) : Nat :=
  limits.foldl (fun x l => if l.allows v then x else putBits x l.lo l.w (getBits old l.lo l.w)) v

/-- The bits of `v` under a mask. -/
def bandN (v m : Nat) : Nat := v &&& m

/-- The new value of a register under its access codes (R9, R10, R12): RW fields take the written value, W1C bits
written as 1 clear, every other bit stays. -/
def RegRow.written (r : RegRow) (old v : Nat) : Nat :=
  let nv := applyLimits r.limits old v
  let kept := bandN old (2 ^ 64 - 1 - r.rw)
  let kept := bandN kept (2 ^ 64 - 1 - bandN v r.w1c)
  kept ||| bandN nv r.rw

end Sys2Proof.Machine
end

