-- ==== Sys2Proof/Machine/State.lean ====
section
/-!
DEFINITION. The state of the block as plain data, the reasons a step can stop, and the state after reset.

The registers of the shared map are one sparse map from a register's address to its value (an address that is not
listed has the reset value that the register tables give it), beside the map of the shadow copies of the commit
groups (R38). State that no register shows stands in the record of its unit.
-/

namespace Sys2Proof.Machine

/-! ### Engines (chapters 6 to 10) -/

/-- A cached stack cell: its value, the operation in flight that will make it ready (R321), and its poison (R356). -/
structure Cell where
  val : Word
  wait : Option Nat := none
  poison : Bool := false
  deriving DecidableEq, Repr

/-- The extended state of R255. -/
structure Ext where
  vl : Nat := 0
  acc : DWord := 0
  tkt0 : Word := 0
  tkt1 : Word := 0
  wsum : Word := 0
  deriving DecidableEq, Repr

/-- A mode change that has not settled (R340): the instructions left, and the mode before it. -/
structure Settle where
  left : Nat
  ring : Nat
  pr : List Word
  deriving DecidableEq, Repr

/-- A stack-cache bank (R351): cached data and return cells, top first, with the pointers and limits. -/
structure Bank where
  dsp : Word := 0
  rsp : Word := 0
  dslim : Word := 0
  rslim : Word := 0
  ds : List Cell := []
  rs : List Cell := []
  deriving DecidableEq, Repr

/-- What a squash brings back: the architectural state of a boundary. -/
structure Arch where
  pc : Word := 0
  psw : Word := 0x80000000
  bank : Bank := {}
  ext : Ext := {}
  /-- protection regions, special registers 0x10 to 0x1F -/
  pr : List Word := List.replicate 16 0
  tsbp : Word := 0
  remotePc : Word := 0
  /-- performance counters 0x40 to 0x55 -/
  perf : List Word := List.replicate 22 0
  /-- PC_CTL -/
  perfCtl : Word := 0xF
  settles : List Settle := []
  /-- PBAR count (R297) -/
  bar : Nat := 0
  /-- EXRING values, latest first; their number is the nesting depth ND (R402) -/
  exring : List Nat := []
  deriving DecidableEq, Repr

/-- The change that GATE, GRET or ERET makes after its delay slot. -/
inductive SlotChange where
  | none
  /-- GATE and GRET: the new ring -/
  | ring (r : Nat)
  /-- ERET: the words of the frame it read (R399) -/
  | eret (frame : List Word)
  deriving DecidableEq, Repr

/-- A branch whose delay slot has not run: its destination (none: the instruction after the slot), the state before
the branch, and its change. -/
structure Slot where
  dest : Option Word
  before : Arch
  change : SlotChange := .none
  deriving DecidableEq, Repr

/-- What an operation in flight is (R321, R403). -/
inductive FlightKind where
  | mul | div
  /-- a load within the tile, and one across the fabric -/
  | tile | fabric
  /-- a load from the external window, by byte address, width in bytes and sign -/
  | ext (a : Nat) (n : Nat) (sx : Bool)
  /-- a load from the remote window -/
  | remote (a : Nat) (n : Nat) (sx : Bool)
  deriving DecidableEq, Repr

/-- A completion-tracker entry: its tag, what it is, and the state before the instruction. -/
structure Flight where
  tag : Nat
  kind : FlightKind
  before : Arch
  slot : Option Slot
  deriving DecidableEq, Repr

/-- A store-buffer entry (R331): where the bytes go, the bytes, the address the instruction computed, the context. -/
structure SbEntry where
  /-- canonical byte address of the lowest byte -/
  adr : Nat
  bytes : List Byte
  /-- the address for a deferred fault (R324) -/
  faddr : Word
  /-- the entry is younger than the operations in flight with smaller tags: it has retired when none of them is left -/
  tag : Nat
  /-- first half of a split store: drains with the next entry (R304) -/
  pair : Bool := false
  ctx : Nat := 0
  ring : Nat := 0
  /-- REMOTE_PC when the store was made (R526, R527) -/
  pc : Nat := 0
  deriving DecidableEq, Repr

/-- A drained store that received ERR, or one whose response is outstanding: its address and context. -/
structure StoreAnswer where
  faddr : Word
  ctx : Nat
  deriving DecidableEq, Repr

/-- An exception raised and not yet entered: cause code, detail, fault address, DEFER and TOVER. -/
structure Exc where
  code : Nat
  detail : Nat := 0
  faddr : Word := 0
  defer : Bool := false
  tover : Bool := false
  deriving DecidableEq, Repr

/-- A 32-byte instruction line, its bytes and whether one of its words was uncorrectable or answered ERR. -/
structure ILine where
  adr : Nat
  bytes : List Byte
  bad : Bool := false
  /-- an instruction has issued from it while it stood in the line buffer (R327) -/
  used : Bool := false
  deriving DecidableEq, Repr

/-- An entry of the branch target buffer (R293). -/
structure BtbEntry where
  pc : Word
  ctxn : Nat
  ring : Nat
  target : Word
  deriving DecidableEq, Repr

/-- What holds an engine's issue beside exceptions. -/
inductive Hold where
  | none
  /-- asleep in WAITI (R393) -/
  | waiti
  /-- a CAL_PARK store whose response is outstanding: OP (R364) -/
  | park (op : Nat)
  /-- a load of a lookup table or predicate register, held for a figure of a tile; released between two figures (R150) -/
  | figTable (t : Nat) (released : Bool)
  deriving DecidableEq, Repr

/-- The state of the bank that is not active (R351, R368, R370). -/
inductive Idle where
  | empty
  /-- the outgoing context's cells and its saved words, draining -/
  | draining (ctx : Nat) (arch : Arch)
  /-- drained: the on-deck context's state, preloaded -/
  | loaded (ctx : Nat) (arch : Arch)
  deriving DecidableEq, Repr

/-- What becomes of a context that is switched out (R362, R364, R365). -/
inductive Leave where
  | free | waiting | held
  /-- READY at the tail of its priority, and READY at its head -/
  | tail | head
  deriving DecidableEq, Repr

/-- An engine. -/
structure Engine where
  arch : Arch := {}
  slot : Option Slot := none
  flights : List Flight := []
  nextTag : Nat := 0
  sb : List SbEntry := []
  /-- stores drained to the external window whose responses are outstanding -/
  waitResp : List StoreAnswer := []
  /-- ERR answers on their way, in the order of the drained stores, and those that have arrived and wait for a
  boundary (R324) -/
  errs : List StoreAnswer := []
  arrived : List StoreAnswer := []
  exc : Option Exc := none
  hold : Hold := .none
  /-- link granule: a 64-bit word's canonical address (R313) -/
  link : Option Nat := none
  /-- firm window count, 0 when closed (R394) -/
  firm : Nat := 0
  /-- spill engine at work: data and return spill, data and return fill (R353) -/
  spillD : Bool := false
  spillR : Bool := false
  fillD : Bool := false
  fillR : Bool := false
  /-- cells that a waiting instruction needs cached: data and return (R355) -/
  needD : Nat := 0
  needR : Nat := 0
  btb : Map (List BtbEntry) := []
  icache : Map (List ILine) := []
  line : Option ILine := none
  /-- the line whose miss the next issued instruction of it counts -/
  missed : Option Nat := none
  /-- copies of the first lines of vectors 12 to 17 (R415) -/
  vectors : List ILine := []
  idle : Idle := .empty
  /-- the caller has asked for the context to be switched out at the next boundary, and what then becomes of it -/
  switchTo : Option Leave := none
  /-- watchdog count (R558) -/
  wdog : Nat := 0
  /-- frozen by a last gasp or a machine check (R416) -/
  frozen : Bool := false
  /-- debug request pending and in monitor (R644) -/
  inMon : Bool := false
  monNd : Nat := 0
  dbgPend : Bool := false
  dbgReason : Nat := 0
  dbgTrg : Nat := 0
  watchTrg : Nat := 0
  /-- the count of entries into RUN at which PSW.GM was last written (R36) -/
  gmEpoch : Nat := 0
  /-- a single step is armed: the next boundary enters debug (R648) -/
  stepping : Bool := false
  deriving DecidableEq, Repr

/-! ### Memories (chapter 12) -/

/-- The code state of a 64-bit word that is not clean: how many of its stored bits are flipped (R463), whether it holds the
poison check pattern (R460), and, of a library word, its erroneous bytes that the inner code does not flag (R458). -/
structure Mark where
  flips : Nat := 0
  poison : Bool := false
  wrong : Nat := 0
  deriving DecidableEq, Repr

/-! ### Events between the units -/

/-- The answer that an access of the shared map receives (R660): OK, ERR or NOTREADY. -/
inductive Code where
  | ok | err | notReady
  deriving DecidableEq, Repr

/-- An answer, with the data of a read. -/
structure Response where
  who : Initiator
  code : Code
  data : DWord := 0
  deriving DecidableEq, Repr

/-- A fault report on its way to the collector: class (0 C, 1 U, 2 F), source ID, detail (R542). -/
structure Report where
  cls : Nat
  src : Nat
  det : Word := 0
  /-- the last report of a tile, with which the tile is fenced: collected though the tile is fenced (R555) -/
  last : Bool := false
  /-- the FBCLK cycle in which it was made (R550) -/
  cyc : Nat := 0
  deriving DecidableEq, Repr

/-- Where a ring comes from, for the checks of R427. -/
inductive Ringer where
  /-- a hardware source -/
  | hw
  /-- an engine, by its ring and global number -/
  | engine (g : Nat) (ring : Nat)
  | host | debug
  /-- a figure's done action -/
  | figure
  /-- a doorbell letter -/
  | letter
  deriving DecidableEq, Repr

/-- A ring that has reached the block doorbell unit and waits to be handled (R426). -/
structure Ring where
  src : Nat
  by_ : Ringer
  /-- the write whose response waits for it (R429): initiator, the host port's request, address -/
  reply : Option (Initiator × Nat × Nat) := none
  deriving DecidableEq, Repr

/-! ### Angle base and time (chapter 2) -/

/-- What the angle base holds of an encoder beside its registers. -/
structure Encoder where
  /-- accepted levels of A, B and Z (R55, R59) -/
  a : Bool := false
  b : Bool := false
  z : Bool := false
  /-- the index condition held at the last look (R59) -/
  zcond : Bool := false
  /-- CPR has taken a value since power-on reset (R54) -/
  cprSet : Bool := false
  /-- position at the last count, correction, sample or letter, 44 bits (R58) -/
  base : Nat := 0
  /-- signed advance since then, in 2^-12 position units (R68) -/
  adv : Int := 0
  /-- STEP of the last count (R54) -/
  step : Nat := 0
  /-- ns since the last count; none when no count can be followed -/
  last : Option Nat := none
  /-- measured count intervals in ns, newest first (R67) -/
  ivals : List Nat := []
  /-- the SSI frame in progress: whether DATA was high before its first CLK edge, and ns since that edge (R64) -/
  frame : Option (Bool × Nat) := none
  /-- ns since the sample time of the last valid SSI sample -/
  sample : Option Nat := none
  /-- velocity of the last SSI sample or time letter (R67, R92) -/
  vel : Int := 0
  /-- a time letter has been used (R92) -/
  lettered : Bool := false
  deriving DecidableEq, Repr

/-- System time between SCLK ticks (R75, R76), and a follower's slewing (R93). -/
structure Clock where
  /-- FBCLK cycles since the last SCLK tick -/
  since : Nat := 0
  /-- accumulated TRIM below one ns, in 2^-16 ns -/
  frac : Nat := 0
  /-- a follower's remaining error, own time less reference, and whether its letters are lost (R94) -/
  err : Int := 0
  lost : Bool := false
  /-- the time that a read has shown before a change of TRIM lowered the cap: no read shows less (R76) -/
  floor : DWord := 0
  deriving DecidableEq, Repr

/-! ### Supplies, clocks and margins (chapter 16) -/

/-- What a tile's clock-and-margin unit holds beside its registers. -/
structure TilePower where
  /-- rail code and FCLK multiplier as they stand -/
  rail : Nat := 0
  fclk : Nat := 0
  /-- FMAX at the even codes in the newest record; empty with no record (R604) -/
  fmax : List Nat := []
  /-- the comparator whose predictive wake holds the tile in Run (R584) -/
  pwake : Option Nat := none
  /-- the FCLK step of the margin pair change in progress is past (R594, R604) -/
  slewed : Bool := false
  /-- a plan waits for the boundary of a change in progress, and so does an Off (R585, R603) -/
  replan : Bool := false
  off : Bool := false
  /-- a quick check is due (R594, R597), and the check in progress: whether it is a full sweep's, and what it measures -/
  quick : Bool := false
  check : Option (Bool × CheckData) := none
  deriving DecidableEq, Repr

/-! ### Control stores (chapter 13) -/

/-- A word of a control store and its parity bits (R483): a word that was never written has neither. -/
structure StoreWord where
  val : BitVec 128 := 0
  par : Nat := 0
  deriving DecidableEq, Repr

/-! ### Figure units (chapter 3) -/

/-- A figure as it entered the queue (R137). -/
structure FigJob where
  num : Nat
  dptr : Nat
  vl : Nat
  ring : Nat
  pr : List Word
  /-- global number of the issuing engine -/
  eng : Nat
  /-- captured FIG_FMT -/
  fmt : DWord
  ticket : Nat
  /-- aborted while queued (R158) -/
  aborted : Bool := false
  deriving DecidableEq, Repr

/-- A step that the sequencer has issued: its number, microword, whether ACLR and EMIT act in this pass of RPT (R122),
and the first element of its element group (R101). -/
structure FigStep where
  no : Nat
  word : MicroWord
  first : Bool
  last : Bool
  base : Nat
  deriving DecidableEq, Repr

/-- An entry: the operands of every lane, raw in LM and extended in MA (R100). -/
structure FigEntry where
  no : Nat
  a : List Int
  b : List Int
  deriving DecidableEq, Repr

/-- An element of a result: its accumulator, its value in CFMT, its operand B, and after PACK its packed bits (0 wide
when unpacked), what it adds to MISCNT and whether it differs (R117, R118). -/
structure FigElem where
  el : Nat
  acc : Int
  val : Nat
  b : Int
  bits : Nat := 0
  width : Nat := 0
  mis : Nat := 0
  dif : Bool := false
  /-- its bit of P[PS] as earlier steps left it (R149) -/
  pred : Bool := false
  deriving DecidableEq, Repr

/-- A result in AP or PS. -/
structure FigResult where
  no : Nat
  els : List FigElem
  deriving DecidableEq, Repr

/-- A generator: its position, its previous fetch and whether that held, and the values kept for a repeat (R109). -/
structure FigGen where
  pos : Nat := 0
  prev : Option Nat := none
  held : Bool := false
  kept : Map Nat := []
  deriving DecidableEq, Repr

/-- A figure fault: element, rank of its stage and step number (R155), cause and failing address. -/
structure FigFault where
  k : Nat
  rank : Nat
  no : Nat
  cause : Nat
  adr : Nat := 0
  deriving DecidableEq, Repr

/-- What the external memory has answered to a request of the figure unit. -/
structure ExtAnswer where
  adr : Nat
  len : Nat
  write : Bool
  bytes : List Byte
  ok : Bool
  /-- asked for by STORE, not by LOAD -/
  store : Bool := false
  deriving DecidableEq, Repr

/-- The running figure. -/
structure FigRun where
  job : FigJob
  /-- the sixteen words of the descriptor -/
  desc : List Word
  /-- start element (R133) -/
  start : Nat := 0
  /-- elements that the figure mask excludes (R148) -/
  masked : Nat := 0
  /-- next microword; none when the sequencer has stopped -/
  addr : Option Nat := none
  /-- END has come (R122, R142) -/
  ended : Bool := false
  stack : List Nat := []
  steps : Nat := 0
  /-- results issued, and passes of RPT made at this address -/
  issued : Nat := 0
  passes : Nat := 0
  /-- field queues of LOAD, MAP, MAC, PACK, STORE -/
  ql : List FigStep := []
  qm : List FigStep := []
  qx : List FigStep := []
  qp : List FigStep := []
  qs : List FigStep := []
  lm : List FigEntry := []
  ma : List FigEntry := []
  ap : List FigResult := []
  ps : List FigResult := []
  ga : FigGen := {}
  gb : FigGen := {}
  posC : Nat := 0
  /-- index stream of A and B, read once: values, and causes of the reads that failed (R128) -/
  idx : Map Nat := []
  idxBad : Map Nat := []
  /-- words that the fetch in hand has read, those of indices apart: their elements share one access (R451) -/
  seen : List (Bool × Nat) := []
  /-- cycles to which A and B are bound in REEL mode (R151) -/
  bindA : Option Nat := none
  bindB : Option Nat := none
  acc : List Int := List.replicate 16 0
  /-- predicate bits written and not committed, by 1024 × register + element; flags by element (R149, R164) -/
  preds : Map Bool := []
  fl : Map Nat := []
  fault : Option FigFault := none
  /-- elements below this one have passed STORE -/
  done : Nat := 0
  miscnt : Nat := 0
  firstmis : Nat := 0xFFFF
  maxrun : Nat := 0
  run : Nat := 0
  lastEl : Option Nat := none
  flags : Nat := 0
  ext : List ExtAnswer := []
  /-- external accesses asked for: address, length, whether a write, whether by STORE -/
  asked : List (Nat × Nat × Bool × Bool) := []
  /-- its result words are on the way to a descriptor in external memory: the status, and whether they are written (R144) -/
  closing : Option (Nat × Bool) := none
  deriving DecidableEq, Repr

/-- A held access to a lookup table or predicate register: initiator, address and the value of a write (R150). -/
structure TableAccess where
  who : Initiator
  /-- the request of the host port that it belongs to -/
  id : Nat := 0
  adr : Nat
  val : Option DWord
  deriving DecidableEq, Repr

/-- A figure unit. -/
structure FigUnit where
  queue : List FigJob := []
  running : Option FigRun := none
  /-- records that hold a completed ticket (R141) -/
  valid : Nat := 0
  /-- engines stalled in FIG on a full queue with their context and PC, and the engine served last (R138) -/
  waiters : List (Nat × Nat × Word) := []
  served : Nat := 15
  held : List TableAccess := []
  /-- the read of a descriptor in external memory: the address asked for, and its answer -/
  descAsked : Option Nat := none
  descAnswer : Option ExtAnswer := none
  deriving DecidableEq, Repr

/-! ### Reels (chapter 5) -/

/-- A cycle whose return is not complete (R221, R222). -/
structure ReelCycle where
  no : Nat
  /-- FLAGS.ANG of its header -/
  ang : Bool
  /-- slots that are expected: position and words -/
  slots : List (Nat × Nat)
  /-- positions that have returned, and the lost or INBAD ones among them (bit mask) -/
  got : List Nat := []
  bad : Nat := 0
  /-- HDRBAD: every slot of the cycle is lost -/
  hdrBad : Bool := false
  deriving DecidableEq, Repr

/-- A write of REEL_EXPn whose response waits for room (R234). -/
structure ExpWrite where
  who : Initiator
  /-- the request of the host port that it belongs to -/
  id : Nat := 0
  entries : List Word
  deriving DecidableEq, Repr

/-- The addressing pass: its frame on the line (false ADDR, true CONF) and the passes that have failed (R204, R207,
R208). -/
structure ReelPass where
  conf : Bool := false
  fails : Nat := 0
  deriving DecidableEq, Repr

/-- The ordered sets and single code groups that the block sends on a reel (R198). -/
inductive ReelSet where
  | idle | align | soc | eoc | safe | addr | conf | exs | ext
  deriving DecidableEq, Repr

/-- What the transmit pair of a reel carries (R243). -/
inductive TxPair where
  | highImpedance
  /-- TXP low, TXN high -/
  | static
  | safe
  /-- the frames of an addressing pass -/
  | pass
  /-- cycle frames, express frames, IDLE -/
  | cycle
  deriving DecidableEq, Repr

/-- What the hub holds of a reel beside its registers. -/
structure ReelUnit where
  /-- queued express writes, oldest first, and those that wait for room -/
  queue : List (List Word) := []
  waiting : List ExpWrite := []
  /-- a pass has succeeded since power-on reset, and the pass in progress -/
  passed : Bool := false
  pass : Option ReelPass := none
  /-- cycles completed since power-on reset (R151) -/
  completed : Nat := 0
  /-- the third failure of a pass (R208), and a failed check on entry to CYCLE (R227): the reel stays in SAFE -/
  failed : Bool := false
  barred : Bool := false
  /-- slots still to be sent in the frame on the line, the time of its start and of the first bit of its SOC, and whether a
  slot has been sent (R37, R220) -/
  todo : List Nat := []
  start : Nat := 0
  soc : Nat := 0
  begun : Bool := false
  /-- the header of that frame (R215) -/
  header : List Byte := []
  /-- the time at which the last express frame ends (R220, R231) -/
  exEnd : Nat := 0
  /-- a forward crossing of angle mode whose cycle has not started (R224, R226) -/
  trig : Bool := false
  /-- its latched set with the STAGE bytes of the latch, the slots to repeat, the nodes to make safe, and whether it is a
  keep cycle (R212, R223, R244) -/
  latched : Nat := 0
  snap : Map (List Byte) := []
  repeats : Nat := 0
  nsafe : Nat := 0
  keep : Bool := false
  /-- the next cycle is the first after the reel entered CYCLE -/
  first : Bool := true
  /-- slots lost or INBAD in the last complete cycle -/
  bad : Nat := 0
  cycles : List ReelCycle := []
  /-- express frames on their way round: SEQ and entry count, and whether one has left since reset -/
  frames : List (Nat × Nat) := []
  numbered : Bool := false
  /-- the part of a frame last sent: a header, slot, express frame or pass frame, from its first byte; the set before it and
  behind it, and the words before which ALIGN went (R198, R199) -/
  sent : List Byte := []
  head : Option ReelSet := none
  tail : Option ReelSet := none
  aligns : List Nat := []
  /-- symbol times of the frame since its last K28.5 (R199) -/
  since : Nat := 0
  deriving DecidableEq, Repr

/-! ### The memory master port (chapter 19) -/

/-- Whose request the port carries. -/
inductive MmWho where
  /-- a load of an engine, by its flight's tag -/
  | load (g tag : Nat)
  /-- a store of an engine, with the address for a deferred fault and its context -/
  | store (g : Nat) (faddr : Word) (ctx : Nat)
  /-- a figure of a tile, by its ticket -/
  | fig (t ticket : Nat)
  /-- the host, by the number of its request, or the debug master: bytes of the access -/
  | port (who : Initiator) (id : Nat) (size : Nat)
  /-- an inbound letter, by its number -/
  | letter (id : Nat)
  deriving DecidableEq, Repr

/-- A request to external memory: its address in the window, and its bytes (written, or as many as are read). -/
structure MmReq where
  who : MmWho
  write : Bool
  adr : Nat
  len : Nat
  bytes : List Byte := []
  /-- BLK_MMCFG.BASE at its arrival; none with EN 0 (R682) -/
  base : Option Nat := none
  deriving DecidableEq, Repr

/-- A request that the port has issued: the beats read so far, whether one of them was ERR, and whether the request
has timed out (R672). -/
structure MmOut where
  req : MmReq
  got : List Byte := []
  bad : Bool := false
  dead : Bool := false
  deriving DecidableEq, Repr

/-- A request that the host target port holds (R664): its number, its byte address and size, and its answer. -/
structure HostReq where
  id : Nat
  adr : Nat
  size : Nat
  done : Option (Code × DWord) := none
  deriving DecidableEq, Repr

/-! ### The relay ports (chapter 14) -/

/-- A letter: its header fields (R513) and payload. -/
structure Letter where
  kind : Nat
  dest : Nat := 0
  src : Nat := 0
  urg : Bool := false
  hops : Nat := 0
  tag : Nat := 0
  arg : Nat := 0
  rlen : Nat := 0
  payload : List Byte := []
  deriving DecidableEq, Repr

/-- A letter that waits at an output port: whose it is when made here, the receive buffer it holds (port; none when
made here), and the input that it came by (a port, or 4 for the local sender, R520). -/
structure OutLetter where
  let_ : Letter
  by_ : Option Initiator := none
  buf : Option Nat := none
  inp : Nat := 4
  /-- the number that the copies of one time letter share: they hold one buffer (R522) -/
  copy : Option Nat := none
  /-- a time letter: the CORR it has so far, and the system time from which its stay here counts (R533) -/
  corr : Option (Nat × DWord) := none
  deriving DecidableEq, Repr

/-- A letter for this block that has not been performed: its number, port and buffer, and whether its access is at the
external memory. -/
structure InLetter where
  id : Nat
  let_ : Letter
  port : Option Nat := none
  issued : Bool := false
  deriving DecidableEq, Repr

/-- What the hub holds of a relay port beside its registers. -/
structure RelayPort where
  urgent : List OutLetter := []
  bulk : List OutLetter := []
  /-- urgent letters sent in a row, and the input served last of each lane (R520) -/
  row : Nat := 0
  servedU : Nat := 4
  servedB : Nat := 4
  /-- the training step that the TRAIN sets name (R508, R510) -/
  step : Nat := 0
  /-- credits in the last CREDIT set sent for each lane since the port came UP (R508, R511, R522) -/
  credU : Nat := 0
  credB : Nat := 0
  /-- sequence number of the last PING, and whether its PONG is awaited -/
  ping : Option Nat := none
  wait : Bool := false
  /-- sequence number and turnaround of the last PONG sent -/
  pong : Option (Nat × Nat) := none
  /-- the last 16 latency measurements, newest first, in half ns (R510, R535) -/
  lats : List Nat := []
  /-- the letter last sent, as a frame -/
  sent : List Byte := []
  deriving DecidableEq, Repr

/-- A read letter that awaits its reply (R529): whose it is, its bytes, its block and lane, the port that it left by, and
whether its time has run out, so that a later reply is dropped. -/
structure ReadTag where
  who : MmWho
  arg : Nat
  len : Nat
  dest : Nat := 0
  urg : Bool := false
  port : Option Nat := none
  late : Bool := false
  deriving DecidableEq, Repr

/-- A read that waits for a tag. -/
structure ReadWait where
  who : MmWho
  dest : Nat
  urg : Bool
  arg : Nat
  len : Nat
  deriving DecidableEq, Repr

/-- A remote store whose response waits because the hub's outgoing queue is full (R528): its initiator, who is told, its
REMOTE_PC, address, width and value. -/
structure RemoteWait where
  who : Initiator
  tell : MmWho
  pc : Nat
  adr : Nat
  len : Nat
  val : Nat
  deriving DecidableEq, Repr

/-! ### Faults (chapter 15) -/

/-- What the collector and the always-on unit hold beside their registers. -/
structure Health where
  /-- the level of ALIVE, and whether its count, the watch of FLT_IN and the block watchdog have started (R565) -/
  alive : Bool := false
  started : Bool := false
  /-- SCLK ticks in the current unit of the block watchdog (R559) -/
  ticks : Nat := 0
  /-- last sample of FLT_IN since the watch started, and whether the host fault and the wire fault have reported since
  the pair last showed no fault (R546) -/
  sample : Option (Bool × Bool) := none
  host : Bool := false
  wire : Bool := false
  /-- tiles that have raised the tile wire fault (R544) -/
  wired : List Nat := []
  deriving DecidableEq, Repr

/-! ### Start-up (chapter 17) -/

/-- What the boot sequencer holds beside its registers. -/
structure Boot where
  /-- VDD_CORE was newly applied and no start has followed (R610) -/
  cold : Bool := true
  /-- system time at t0 (R631) -/
  t0 : DWord := 0
  /-- a warm restart that leaves Standby (R624), and a Standby that is being left (R589) -/
  leaving : Bool := false
  waking : Bool := false
  /-- the external image alone is the source, and the sources tried in this start (R627) -/
  ext : Bool := false
  tried : List Nat := []
  /-- the verified header, the sections loaded so far, the ranges written, and the sections held until step 7, by their
  place in the table -/
  header : List Byte := []
  next : Nat := 0
  wrote : List (Nat × Nat) := []
  held : Map (List Byte) := []
  /-- tiles whose restart is queued, in order of request (R630) -/
  restarts : List Nat := []
  deriving DecidableEq, Repr

/-! ### Debug (chapter 18) -/

/-- The TAP: its instruction, the value last captured into the data register, and the boundary cells' update stage. -/
structure Tap where
  ir : Nat := 1
  dr : Nat := 0
  cells : BitVec 100 := 0
  deriving DecidableEq, Repr

/-- An answer of the debug master: status, read data, and whether the read could not be peeked (R638, R642). -/
structure DbgAnswer where
  code : Code := .ok
  data : DWord := 0
  noPeek : Bool := false
  deriving DecidableEq, Repr

/-- The debug master: the command that runs, by its address, with its answer when that has come; and the last finished
command (R639). -/
structure DbgMaster where
  cmd : Option Nat := none
  ans : Option DbgAnswer := none
  lastAdr : Nat := 0
  last : DbgAnswer := {}
  deriving DecidableEq, Repr

/-! ### The reasons a step can stop -/

/-- No step of this model stops with a fault: an exception, an error answer or a refused command of the block is a
next state. The one constructor stands for a machine that has lost its power and its state for good, which no command
of the table brings about; nothing raises it (safe). -/
inductive Fault where
  /-- never raised -/
  | lost
  deriving DecidableEq, Repr

/-- Why the model gives a command no meaning. -/
inductive Refusal where
  /-- a command whose meaning has not been written, by its mnemonic; raised by Dispatch alone; safe -/
  | notModelled (mnemonic : String)
  deriving DecidableEq, Repr


/-! ### The block -/

/-- The state of the block. -/
structure State where
  /-- commands that are waiting, first in first out -/
  pending : List Instr := []
  /-- registers by their address in the shared map, and the shadow copies of the commit groups (R38) -/
  regs : Map DWord := []
  shadow : Map DWord := []
  /-- memory: scratchpads, tile memories and library, by global address; an unlisted byte reads 0 -/
  mem : List Host.Cell := []
  marks : Map Mark := []
  /-- corrected words and rows that wait for their write-back (R461) -/
  writebacks : List Nat := []
  /-- the GO word of the last march operation of a tile (0 to 11) and of the library (12) (R467) -/
  marches : Map Word := []
  /-- scrub pointers, by 48 × unit + pointer, and the pointers of a unit that have passed since SCRUBPASS last counted
  (R464) -/
  scrubs : Map Nat := []
  scrubbed : Map Nat := []
  /-- engines by global number; an unlisted engine is as after reset -/
  engines : Map Engine := []
  /-- READY contexts of a tile, in the order in which they became READY (R365) -/
  ready : Map (List Nat) := []
  /-- fault reports on their way to the collector -/
  reports : List Report := []
  /-- how many FBCLK cycles have passed, and the units, by KIND and INDEX, that hardware has fenced in this one (R550, R556) -/
  fbclk : Nat := 0
  hwFenced : List (Nat × Nat) := []
  health : Health := {}
  /-- rings waiting at the block doorbell unit -/
  rings : List Ring := []
  /-- tiles that a cause of R583 wakes from Doze or Nap -/
  wakes : List Nat := []
  /-- the angle base by encoder, and the bus angles of the last FBCLK cycle (R66, R78) -/
  encoders : Map Encoder := []
  bus : Map Nat := []
  /-- comparators rebased by a write since the last FBCLK cycle, by 16 × tile + k: their a0 (R82, R83) -/
  rebased : Map Nat := []
  clock : Clock := {}
  /-- control stores: engine g's word a at 2048 × g + a, tile t's figure store at 0x100000 + 2048 × t + a -/
  ucStores : Map StoreWord := []
  /-- the command of UC_CMD that a tile's loading hardware runs (R496) -/
  ucCmds : Map Word := []
  figures : Map FigUnit := []
  reels : Map ReelUnit := []
  /-- requests waiting for the memory master port, requests issued (reads by tag, writes at 64 + tag), and the write
  beats still to be sent, oldest request first: tag and beats -/
  mmWait : List MmReq := []
  mmOut : Map MmOut := []
  mmBeats : List (Nat × Nat) := []
  /-- requests that the host target port holds, oldest first, the number of the last, and of the one being served (0: none) -/
  host : List HostReq := []
  hostId : Nat := 0
  hostNow : Nat := 0
  relays : Map RelayPort := []
  /-- letters for this block, oldest first, and the number of the next -/
  inbox : List InLetter := []
  letterId : Nat := 0
  readTags : Map ReadTag := []
  /-- remote stores that wait for room in the hub's outgoing queue (R528) -/
  storeWait : List RemoteWait := []
  readWait : List ReadWait := []
  /-- the next time letter steps system time (R93) -/
  stepTime : Bool := true
  tilePower : Map TilePower := []
  /-- the next tile that a sweep in progress comes to (R598), and the age-log records written (R599) -/
  sweepNext : Nat := 0
  logSeq : Nat := 0
  /-- PG_IO, PG_ANA and the block's VDD_CORE power-good, bits 0 to 2 (R573, R574) -/
  powerGood : Nat := 7
  boot : Boot := {}
  tap : Tap := {}
  master : DbgMaster := {}
  /-- PORESET_N is low -/
  poreset : Bool := false
  /-- PLLs that are locked: bit 0 block, 1 reel, 2 relay, 3 + t tile t (R579) -/
  plls : Nat := 0
  /-- how often the block has entered RUN, which clears every PSW.GM (R36) -/
  gmEpoch : Nat := 0
  /-- the answer to the last access -/
  resp : Option Response := none
  /-- how many free values the manual's open points have taken: the model's own, not the manual's -/
  fresh : Nat := 0
  deriving DecidableEq, Repr

/-- The machine right after reset: PORESET_N has risen with the rails good, BLK_MODE reads BOOT, every tile is Off,
every register has its Reset value (R13) and no command waits. -/
def State.reset : State := {}

end Sys2Proof.Machine
end

