-- ==== Sys2Proof/Machine/Access.lean ====
section
/-!
DEFINITION. Accessors of the state: registers and their fields, engines, reports and rings, free values.
-/

namespace Sys2Proof.Machine

/-- The active copy of the register at an address. -/
def State.reg (s : State) (a : Nat) : DWord := mget (regReset a) s.regs a

/-- The state with the active copy of a register at `v`. -/
def State.setReg (s : State) (a : Nat) (v : DWord) : State := { s with regs := mset s.regs a v }

/-- The shadow copy of a register of a commit group (R38); it has the reset value until something moves it. -/
def State.shadowReg (s : State) (a : Nat) : DWord := mget (regReset a) s.shadow a
def State.setShadow (s : State) (a : Nat) (v : DWord) : State := { s with shadow := mset s.shadow a v }

/-- A field of a register, and the state with it replaced. -/
def State.get (s : State) (a : Nat) (f : Fld) : Nat := fldOf (s.reg a) f
def State.put (s : State) (a : Nat) (f : Fld) (x : Nat) : State := s.setReg a (putFld (s.reg a) f x)

/-- Whether bit `i` of a register is 1, and the state with it set or cleared. -/
def State.bit (s : State) (a i : Nat) : Bool := bitOf (s.reg a) i
def State.setBit (s : State) (a i : Nat) : State := s.put a ⟨i, 1⟩ 1
def State.clrBit (s : State) (a i : Nat) : State := s.put a ⟨i, 1⟩ 0

/-- A saturating count in a field (R57 and the RC counts of the manual). -/
def State.countSat (s : State) (a : Nat) (f : Fld) : State := s.put a f (satInc (2 ^ f.w - 1) (s.get a f))

/-- A wrapping count in a field. -/
def State.countWrap (s : State) (a : Nat) (f : Fld) : State := s.put a f ((s.get a f + 1) % 2 ^ f.w)

/-- The engine with a global number. -/
def State.eng (s : State) (g : Nat) : Engine := mget {} s.engines g
def State.setEng (s : State) (g : Nat) (e : Engine) : State := { s with engines := mset s.engines g e }
def State.modEng (s : State) (g : Nat) (f : Engine → Engine) : State := s.setEng g (f (s.eng g))

/-- The tile of a global engine number, and the engine in it (R6). -/
def tileOf (g : Nat) : Nat := g / 16
def engOf (g : Nat) : Nat := g % 16
/-- Whether a global engine number is a lead engine's (R6). -/
def isLead (g : Nat) : Bool := g % 16 == 0

/-- A fault report on its way to the collector (R543). -/
def State.report (s : State) (cls src : Nat) (det : Word := 0) : State :=
  { s with reports := s.reports ++ [{ cls := cls, src := src, det := det, cyc := s.fbclk }] }

/-- Hardware fences a unit in this FBCLK cycle: a software release of it in the same cycle leaves it fenced (R556). -/
def State.fencedByHw (s : State) (kind ix : Nat) : State := { s with hwFenced := (kind, ix) :: s.hwFenced }

/-- A request reaches the memory master port, with BLK_MMCFG as it stands (R682; DEDUCED, log 66). -/
def State.mmAsk (s : State) (r : MmReq) : State :=
  let base := if s.get Adr.BLK_MMCFG Bits.BLK_MMCFG_EN = 1 then some (s.get Adr.BLK_MMCFG Bits.BLK_MMCFG_BASE) else none
  { s with mmWait := s.mmWait ++ [{ r with base := base }] }

/-- The source IDs' unit parts (R542). -/
def srcTile (t code : Nat) : Nat := t * 256 + code
def srcReel (n code : Nat) : Nat := (0x20 + n) * 256 + code
def srcRelay (n code : Nat) : Nat := (0x30 + n) * 256 + code

/-- A flag that reports only on its rise (R542): the state with bit `i` of a register set, and a class C report of
`src` when the bit was 0. -/
def State.raiseFlag (s : State) (a i src : Nat) (det : Word) : State :=
  if s.bit a i then s else (s.setBit a i).report 0 src det

/-- A ring of a hardware source on its way to the block doorbell unit (R422, R426). -/
def State.ringHw (s : State) (src : Nat) : State := { s with rings := s.rings ++ [⟨src, .hw, none⟩] }

/-- A free value: what the manual leaves open, and the state that has taken it. -/
def State.free (s : State) : DWord × State := (Config.freeBits s.fresh, { s with fresh := s.fresh + 1 })

/-- A count whose overflow the manual does not state: at its top the new value is free (log 15). -/
def State.countOpen (s : State) (a : Nat) (f : Fld) : State :=
  let v := s.get a f
  if v + 1 < 2 ^ f.w then s.put a f (v + 1)
  else
    let r := s.free
    r.2.put a f r.1.toNat

/-- The answer to an access. -/
def State.answer (s : State) (who : Initiator) (c : Code) (d : DWord := 0) : State :=
  { s with resp := some { who := who, code := c, data := d } }

/-- A request that the host target port holds has its answer (R664). -/
def State.hostDone (s : State) (id : Nat) (c : Code) (d : DWord) : State :=
  { s with host := s.host.map (fun r => if r.id = id ∧ r.done = none then { r with done := some (c, d) } else r) }

/-- The command of the debug master that runs has its answer (R639). -/
def State.masterDone (s : State) (a : DbgAnswer) : State :=
  if s.master.cmd.isSome ∧ s.master.ans = none then { s with master := { s.master with ans := some a } } else s

/-- The data of a read on its byte lanes (R662) or right-aligned (R638). -/
def portData (who : Initiator) (adr n : Nat) (bytes : List Byte) : DWord :=
  let v := leVal (bytes.take n)
  if who = .host then BitVec.ofNat 64 (v * 2 ^ (8 * (adr % 8))) else BitVec.ofNat 64 v

/-- The answer to an access that had to wait: the host's request `id`, or the debug master's command, has it too. -/
def State.answerLate (s : State) (who : Initiator) (id : Nat) (c : Code) (d : DWord := 0) : State :=
  let s := s.answer who c d
  if who = .host then s.hostDone id c d else if who = .debug then s.masterDone { code := c, data := d } else s

/-- The block's mode (R29): 0 BOOT, 1 COMMISSION, 2 TEST, 3 RECOVERY, 4 RUN. -/
def State.mode (s : State) : Nat := s.get Adr.BLK_MODE Bits.BLK_MODE_MODE
def modeBoot : Nat := 0
def modeCommission : Nat := 1
def modeTest : Nat := 2
def modeRecovery : Nat := 3
def modeRun : Nat := 4

/-- Whether the block is in class F (R34, R562). -/
def State.fatal (s : State) : Bool := s.get Adr.BLK_MODE Bits.BLK_MODE_FATAL == 1

/-- What the angle base holds of an encoder, and what the clock-and-margin unit holds of a tile. -/
def State.enc (s : State) (e : Nat) : Encoder := mget {} s.encoders e
def State.setEnc (s : State) (e : Nat) (x : Encoder) : State := { s with encoders := mset s.encoders e x }
def State.power (s : State) (t : Nat) : TilePower := mget {} s.tilePower t
def State.setPower (s : State) (t : Nat) (x : TilePower) : State := { s with tilePower := mset s.tilePower t x }

/-- Whether the block is in Standby or entering it (R587). -/
def State.standby (s : State) : Bool := s.get Adr.MRG_STBY Bits.MRG_STBY_IN == 1

/-- The increment of system time at the next SCLK tick, and the fraction that it leaves (R75). -/
def State.tickInc (s : State) : Nat × Nat :=
  let x : Int := 40 * 65536 + (s.clock.frac : Int) + (BitVec.setWidth 32 (s.reg Adr.ANG_TRIM)).toInt
  ((x / 65536).toNat, (x % 65536).toNat)

/-- System time as it reads: the count at the last SCLK tick plus the FBCLK cycles since, below the next tick's count,
and never below what a read has shown; in Standby the count alone (R76). -/
def State.time (s : State) : DWord :=
  if s.standby then s.reg Adr.ANG_TIME
  else
    let t := s.reg Adr.ANG_TIME + BitVec.ofNat 64 (min s.clock.since (s.tickInc.1 - 1))
    if t.toNat < s.clock.floor.toNat then s.clock.floor else t

/-- ANG_TRIM takes a value. Where that lowers the time that reads show, the time shown before is kept until the count
passes it (R76; DEDUCED, log 107). -/
def State.setTrim (s : State) (v : DWord) : State :=
  let u := s.setReg Adr.ANG_TRIM v
  if u.time.toNat < s.time.toNat then { u with clock := { u.clock with floor := s.time } } else u

/-- The times from which waiting time letters count their stay move with a step of system time. -/
def RelayPort.shift (r : RelayPort) (d : DWord) : RelayPort :=
  let move (o : OutLetter) : OutLetter := { o with corr := o.corr.map (fun c => (c.1, c.2 + d)) }
  { r with urgent := r.urgent.map move, bulk := r.bulk.map move }

/-- So do the times that the hub keeps of a reel's line. -/
def ReelUnit.shift (u : ReelUnit) (d : DWord) : ReelUnit :=
  let move (x : Nat) : Nat := (x + d.toNat) % 2 ^ 64
  { u with start := move u.start, soc := move u.soc, exEnd := move u.exEnd }

/-- System time takes a value by a write or a step (R77, R93): the FBCLK cycles since the last tick count as none, and
reads follow it though it is lower (DESIGN CHOICE, log 49). -/
def State.setTime (s : State) (v : DWord) : State :=
  { s.setReg Adr.ANG_TIME v with
    clock := { s.clock with since := 0, floor := 0 }
    relays := s.relays.map (fun r => (r.1, r.2.shift (v - s.time)))
    reels := s.reels.map (fun r => (r.1, r.2.shift (v - s.time))) }

/-- A word of a control store, and whether its parity holds: odd over each 64 bits with its bit, or over the 32 bits of a
vertical word (R483). -/
def State.storeWord (s : State) (k : Nat) : StoreWord := mget {} s.ucStores k
def vertKey (g a : Nat) : Nat := 2048 * g + a
def figKey (t a : Nat) : Nat := 0x100000 + 2048 * t + a
def bitSum (n v : Nat) : Nat := (List.range n).foldl (fun c i => c + v / 2 ^ i % 2) 0
def StoreWord.vertOk (w : StoreWord) : Bool := (bitSum 32 w.val.toNat + w.par % 2) % 2 == 1
def StoreWord.figOk (w : StoreWord) : Bool :=
  (bitSum 64 (w.val.toNat % 2 ^ 64) + w.par % 2) % 2 == 1 && (bitSum 64 (w.val.toNat / 2 ^ 64) + w.par / 2 % 2) % 2 == 1

/-- A figure unit. -/
def State.figure (s : State) (t : Nat) : FigUnit := mget {} s.figures t
def State.setFigure (s : State) (t : Nat) (u : FigUnit) : State := { s with figures := mset s.figures t u }

/-- What the hub holds of a reel. -/
def State.reel (s : State) (n : Nat) : ReelUnit := mget {} s.reels n
def State.setReel (s : State) (n : Nat) (u : ReelUnit) : State := { s with reels := mset s.reels n u }

/-- A parity error is counted, and captured when no earlier one is held (R498 to R500). KIND 0 stream, 1 lead, 2
figure store. -/
def State.ucError (s : State) (t kind e a : Nat) : State :=
  let r := Adr.UC_ERR t
  let s := s.countSat (Adr.UC_CNT t) Bits.UC_CNT_PERRCNT
  if s.get r Bits.UC_ERR_V = 1 then s
  else (((s.put r Bits.UC_ERR_V 1).put r Bits.UC_ERR_KIND kind).put r Bits.UC_ERR_ENG e).put r Bits.UC_ERR_ADDR a

/-- A tile's sleep state (R608): 0 Run, 1 Doze, 2 Nap, 3 Off. -/
def State.sleep (s : State) (t : Nat) : Nat := s.get (Adr.MRG_TSTAT t) Bits.MRG_TSTAT_SLEEP

/-- Whether a tile, an engine and a figure unit are fenced (R557). -/
def State.tileFenced (s : State) (t : Nat) : Bool := s.bit Adr.FLT_FTILE t
def State.engFenced (s : State) (g : Nat) : Bool := s.bit (Adr.FLT_FENG (tileOf g)) (engOf g)
def State.figFenced (s : State) (t : Nat) : Bool := s.bit Adr.FLT_FTILE (16 + t)

end Sys2Proof.Machine
end

