-- ==== Sys2Proof/Machine/Flags.lean ====
section
/-!
DEFINITION. The arithmetic of the Onalen engines and every flag it computes (R253, R258, R267 to R279): pure functions
from the cells an instruction pops to the cells it pushes and the flags it writes. Operands are converted to integers,
the result is computed exactly, and then narrowed.
-/

namespace Sys2Proof.Machine

/-- The effect of a data instruction on the cells and flags: the cells pushed (top first), the new C and V where the
Flags column names them, and whether a result was clamped (R253). -/
structure Fx where
  d : List Word := []
  r : List Word := []
  c : Option Bool := none
  v : Option Bool := none
  sat : Bool := false
  deriving DecidableEq, Repr

/-- The flag cell of a condition (R258). -/
def flagCell (b : Bool) : Word := if b then 0xFFFFFFFF else 0

/-- The low cell and the high cell of a double cell (R259). -/
def loCell (d : DWord) : Word := d.setWidth 32
def hiCell (d : DWord) : Word := (d >>> 32).setWidth 32

/-- The double cell of a low and a high cell (R259). -/
def dcell (lo hi : Word) : DWord := hi.setWidth 64 <<< 32 ||| lo.setWidth 64

/-- A cell read as Q15 or as the low 16 bits in two's complement (R258). -/
def s16 (x : Word) : Int := (x.setWidth 16).toInt

/-- Whether an integer is a signed number of `w` bits. -/
def fitsS (w : Nat) (i : Int) : Bool := -(2 ^ (w - 1) : Int) ≤ i && i < 2 ^ (w - 1)

/-- An integer clamped to the signed numbers of `w` bits, and whether it was clamped. -/
def clampS (w : Nat) (i : Int) : Int × Bool :=
  if i < -(2 ^ (w - 1) : Int) then (-(2 ^ (w - 1) : Int), true)
  else if i < 2 ^ (w - 1) then (i, false) else (2 ^ (w - 1) - 1, true)

/-- Floor of `i / 2^k` (toward −∞), and with one half LSB added first (half upward, R278). -/
def floorShift (i : Int) (k : Nat) : Int := i / 2 ^ k
def halfUp (i : Int) (k : Nat) : Int := if k = 0 then i else (i + 2 ^ (k - 1)) / 2 ^ k

/-- Sum with carry in: the wrapped sum, the carry out of the top bit, the signed overflow (R253). -/
def addW {w : Nat} (a b : BitVec w) (cin : Bool) : BitVec w × Bool × Bool :=
  let r := a + b + BitVec.ofNat w (bnat cin)
  (r, 2 ^ w ≤ a.toNat + b.toNat + bnat cin, r.toInt ≠ a.toInt + b.toInt + bnat cin)

/-- Difference with borrow in: the wrapped difference, the borrow, the signed overflow (R253). -/
def subW {w : Nat} (a b : BitVec w) (bin : Bool) : BitVec w × Bool × Bool :=
  let r := a - b - BitVec.ofNat w (bnat bin)
  (r, a.toNat < b.toNat + bnat bin, r.toInt ≠ a.toInt - b.toInt - bnat bin)

/-- Left shift by 0 to 63 and the last bit shifted out (R270, R272). -/
def shlW {w : Nat} (a : BitVec w) (n : Nat) : BitVec w × Bool :=
  if n = 0 then (a, false) else if n < w then (a <<< n, a.getLsbD (w - n)) else (0, false)

/-- Right shift with zero fill (R270, R272). -/
def shrW {w : Nat} (a : BitVec w) (n : Nat) : BitVec w × Bool :=
  if n = 0 then (a, false) else if n < w then (a >>> n, a.getLsbD (n - 1)) else (0, false)

/-- Right shift with sign fill (R270, R272). -/
def sarW {w : Nat} (a : BitVec w) (n : Nat) : BitVec w × Bool :=
  if n = 0 then (a, false) else if n < w then (a.sshiftRight n, a.getLsbD (n - 1))
  else (a.sshiftRight w, a.msb)

/-- One cell with C and V. -/
def fxCV (r : Word × Bool × Bool) : Fx := { d := [r.1], c := some r.2.1, v := some r.2.2 }

/-- One double cell with C and V: the high cell is the top. -/
def fxDCV (r : DWord × Bool × Bool) : Fx :=
  { d := [hiCell r.1, loCell r.1], c := some r.2.1, v := some r.2.2 }

/-- A shifted cell and C. -/
def fxC (r : Word × Bool) : Fx := { d := [r.1], c := some r.2 }

/-- A shifted double cell and C. -/
def fxDC (r : DWord × Bool) : Fx := { d := [hiCell r.1, loCell r.1], c := some r.2 }

/-- Cells without flags. -/
def fxCells (l : List Word) : Fx := { d := l }

/-- A shift count taken from n[5:0] of a cell (R270, R272). -/
def count6 (n : Word) : Nat := n.toNat % 64

/-- Leading zero bits of a cell, 0 to 32 (R269). -/
def clzWord (a : Word) : Nat := 32 - (if a = 0 then 0 else a.toNat.log2 + 1)

/-- Set bits of a cell, 0 to 32 (R269). -/
def popcWord (a : Word) : Nat := (List.range 32).foldl (fun n i => n + bnat (a.getLsbD i)) 0

/-- The bytes of a cell in reverse order (R269). -/
def bswapWord (a : Word) : Word :=
  BitVec.ofNat 32 (leVal (leBytes 4 a.toNat).reverse)

/-- A cell whose bit j is bit 31 − j of `a` (R269). -/
def brevWord (a : Word) : Word := BitVec.ofNat 32 (maskOf 32 (fun j => a.getLsbD (31 - j)))

/-- |a|, with 0x8000_0000 unchanged and V set there (R271). -/
def fxAbs (a : Word) : Fx :=
  let r := if a.toInt < 0 then 0 - a else a
  { d := [r], v := some (r.toInt ≠ a.toInt.natAbs) }

/-- The low `k` bits of a cell, sign-extended (R271). -/
def sextLow (k : Nat) (a : Word) : Word := (a.setWidth k).signExtend 32

/-- The S32 value of a double cell, clamped (R272). -/
def fxDToS (d : DWord) : Fx :=
  let q := clampS 32 d.toInt
  { d := [BitVec.ofInt 32 q.1], sat := q.2 }

/-! ### Multiply and divide (R273, R275) -/

/-- MUL: the low cell of the product, V when the signed product leaves S32. -/
def fxMul (a b : Word) : Fx := { d := [a * b], v := some (!fitsS 32 (a.toInt * b.toInt)) }

/-- UMUL: the low cell of the product, C when the unsigned product leaves U32. -/
def fxUmul (a b : Word) : Fx := { d := [a * b], c := some (2 ^ 32 ≤ a.toNat * b.toNat) }

/-- MULW and UMULW: the whole product as a double cell. -/
def fxMulw (a b : Word) : Fx :=
  let p := BitVec.ofInt 64 (a.toInt * b.toInt)
  fxCells [hiCell p, loCell p]
def fxUmulw (a b : Word) : Fx :=
  let p := BitVec.ofNat 64 (a.toNat * b.toNat)
  fxCells [hiCell p, loCell p]

/-- A quotient, a remainder, and whether a case of R275 applies (V, and SAT where a quotient is delivered). -/
structure QR where
  q : Word
  r : Word
  lim : Bool
  /-- the divisor was 0 -/
  zero : Bool
  deriving DecidableEq, Repr

/-- Signed division of `n` by `d`, with `low` the dividend or its low cell (R275). -/
def divSigned (n d : Int) (low : Word) : QR :=
  if d = 0 then
    { q := if 0 ≤ n then 0x7FFFFFFF else 0x80000000, r := low, lim := true, zero := true }
  else
    let q := n.tdiv d
    let r := n.tmod d
    let qc := clampS 32 q
    { q := BitVec.ofInt 32 qc.1, r := if fitsS 32 r then BitVec.ofInt 32 r else low, lim := qc.2, zero := false }

/-- Unsigned division of `n` by `d`, with `low` the dividend or its low cell (R275). -/
def divUnsigned (n d : Nat) (low : Word) : QR :=
  if d = 0 then { q := 0xFFFFFFFF, r := low, lim := true, zero := true }
  else
    let q := n / d
    let r := n % d
    if q < 2 ^ 32 then { q := BitVec.ofNat 32 q, r := BitVec.ofNat 32 r, lim := false, zero := false }
    else { q := 0xFFFFFFFF, r := if r < 2 ^ 32 then BitVec.ofNat 32 r else low, lim := true, zero := false }

/-- DIV and UDIV deliver the quotient; V and SAT in the cases of R275. -/
def fxQ (x : QR) : Fx := { d := [x.q], v := some x.lim, sat := x.lim }
/-- MOD and UMOD deliver the remainder; V in the divisor-0 cases, never SAT. -/
def fxR (x : QR) : Fx := { d := [x.r], v := some x.zero }
/-- The two-result divides deliver r and then q on top. -/
def fxRQ (x : QR) : Fx := { d := [x.q, x.r], v := some x.lim, sat := x.lim }

/-! ### Fixed point (R277, R278) -/

/-- A 16-bit result, clamped, as a cell with its upper half equal to bit 15 (R258). -/
def fxQ15 (i : Int) : Fx :=
  let q := clampS 16 i
  { d := [BitVec.ofInt 32 q.1], sat := q.2 }

/-- A 32-bit result, clamped. -/
def fxQ31 (i : Int) : Fx :=
  let q := clampS 32 i
  { d := [BitVec.ofInt 32 q.1], sat := q.2 }

/-- V of a fixed-point instruction: the exact result is not 0 and the delivered one is (R253). -/
def withUnf (exactNonzero : Bool) (f : Fx) : Fx := { f with v := some (exactNonzero && f.d == [0]) }

/-- The Q15 product, toward −∞ and half upward. -/
def fxQmul (a b : Word) : Fx := withUnf (s16 a * s16 b != 0) (fxQ15 (floorShift (s16 a * s16 b) 15))
def fxQmulr (a b : Word) : Fx := withUnf (s16 a * s16 b != 0) (fxQ15 (halfUp (s16 a * s16 b) 15))

/-- The Q31 product, toward −∞ and half upward. -/
def fxQmull (a b : Word) : Fx := withUnf (a.toInt * b.toInt != 0) (fxQ31 (floorShift (a.toInt * b.toInt) 31))
def fxQmullr (a b : Word) : Fx := withUnf (a.toInt * b.toInt != 0) (fxQ31 (halfUp (a.toInt * b.toInt) 31))

/-- `a × 2^n[4:0]`, clamped to S32. -/
def fxQshl (a n : Word) : Fx := fxQ31 (a.toInt * 2 ^ (n.toNat % 32))

/-- `a / 2^n[4:0]`, half upward, with V. -/
def fxQrshr (a n : Word) : Fx := withUnf (a != 0) { d := [BitVec.ofInt 32 (halfUp a.toInt (n.toNat % 32))] }

/-- ACCQ: ACC / 2^k, half upward, clamped to S32, with SAT and V (R279). -/
def fxAccq (acc : DWord) (k : Nat) : Fx := withUnf (acc != 0) (fxQ31 (halfUp acc.toInt k))

/-- ACC plus a signed integer, clamped to S64, and whether it was clamped (R279). -/
def accPlus (acc : DWord) (p : Int) : DWord × Bool :=
  let q := clampS 64 (acc.toInt + p)
  (BitVec.ofInt 64 q.1, q.2)

/-- ACC read as unsigned plus a product, clamped to 0xFFFF_FFFF_FFFF_FFFF (R279). -/
def accPlusU (acc : DWord) (p : Nat) : DWord × Bool :=
  if acc.toNat + p < 2 ^ 64 then (BitVec.ofNat 64 (acc.toNat + p), false) else (BitVec.allOnes 64, true)

end Sys2Proof.Machine
end

