-- ==== Sys2Proof/Machine/Mem.lean ====
section
/-!
DEFINITION. The memories (chapter 12): the byte list in its one canonical form, the places an address names (R26,
R679), the error codes that guard each word and row (R456 to R463), and the STATE lock of the channel store (R181).

Memory is keyed by the global address of the shared map: scratchpad of engine e of tile t at
0x1000_0000 + t·0x0100_0000 + e·0x1_0000, tile memory at + 0x0080_0000, library memory at 0x2000_0000. The local
addresses of an engine are aliases (R26) and are turned into these. The list holds the intended data; `State.marks` holds
what the stored code word differs in.
-/

namespace Sys2Proof.Machine

/-- Memory: bytes by address, addresses strictly rising, no entry equal to 0, which an unlisted byte reads as. -/
abbrev Memory := List Host.Cell

/-- What an unlisted byte of memory reads as (DESIGN CHOICE, log 3: the manual gives no contents at power-on; the
march and the clear of R465 and R466 leave zero). -/
def memEmpty : Byte := 0

/-- The byte at an address. -/
def memRd : Memory → Nat → Byte
  | [], _ => memEmpty
  | (k, v) :: r, a => if k = a then v else memRd r a

/-- The memory with a byte written, in canonical form. -/
def memWr : Memory → Nat → Byte → Memory
  | [], a, b => if b = memEmpty then [] else [(a, b)]
  | (k, v) :: r, a, b =>
    if a < k then (if b = memEmpty then (k, v) :: r else (a, b) :: (k, v) :: r)
    else if a = k then (if b = memEmpty then r else (a, b) :: r)
    else (k, v) :: memWr r a b

/-- Whether every address of the list lies above `a`, strictly rising, and no byte is 0. -/
def memSorted : Nat → Memory → Bool
  | _, [] => true
  | a, (k, v) :: r => a < k && v != memEmpty && memSorted k r

/-- The canonical form. -/
def Memory.wf : Memory → Bool
  | [] => true
  | (k, v) :: r => v != memEmpty && memSorted k r

/-- `n` bytes from an address. -/
def memBytes (m : Memory) (a : Nat) : Nat → List Byte
  | 0 => []
  | n + 1 => memRd m a :: memBytes m (a + 1) n

/-- The memory with bytes written from an address. -/
def memWrite (m : Memory) (a : Nat) : List Byte → Memory
  | [] => m
  | b :: r => memWrite (memWr m a b) (a + 1) r

/-! ### Places -/

/-- Global addresses of the memories (R679). -/
def scratchAdr (g off : Nat) : Nat := 0x10000000 + 0x1000000 * tileOf g + 0x10000 * engOf g + off
def tileMemAdr (t off : Nat) : Nat := 0x10800000 + 0x1000000 * t + off

/-- What an address of the shared map names (R679). -/
inductive Place where
  /-- the own scratchpad through its local addresses: global address -/
  | own (a : Nat)
  /-- a scratchpad or the memory of the engine's tile: global address -/
  | tile (a : Nat)
  /-- memory across the fabric: another tile's, or the library: global address -/
  | fabric (a : Nat)
  /-- register space -/
  | reg (a : Nat)
  /-- external memory window -/
  | ext (a : Nat)
  /-- remote window -/
  | remote (a : Nat)
  | unmapped
  deriving DecidableEq, Repr

/-- Tile-memory bytes that are addressable: 31 banks (R449). -/
def tileMemSize : Nat := 0xF8000

/-- What a global-window address names: the tile and whether it lies in its memories. -/
def windowPlace (a : Nat) : Option Nat :=
  if 0x10000000 ≤ a ∧ a < 0x1C000000 then
    let off := a % 0x1000000
    if off < 0x100000 ∨ (0x800000 ≤ off ∧ off < 0x800000 + tileMemSize) then some ((a - 0x10000000) / 0x1000000)
    else none
  else none

/-- Whether an address lies in library memory, and in the channel store (R171). -/
def inLibrary (a : Nat) : Bool := 0x20000000 ≤ a && a < 0x20800000
def inChannels (a : Nat) : Bool := 0x20000000 ≤ a && a < 0x20200000

/-- The place of an address above the engine-local ranges, for an initiator of tile `t?`. -/
def sharedPlace (t? : Option Nat) (a : Nat) : Place :=
  match windowPlace a with
  | some t => if t? = some t then .tile a else .fabric a
  | none =>
    if inLibrary a then .fabric a
    else if inRegSpace a then .reg a
    else if 0x40000000 ≤ a ∧ a < 0xC0000000 then .ext a
    else if 0xC0000000 ≤ a ∧ a < 0x100000000 then .remote a
    else .unmapped

/-- The place of an address of an engine (R26, R679). -/
def engPlace (g a : Nat) : Place :=
  if a < 0x10000 then .own (scratchAdr g a)
  else if 0x1000000 ≤ a ∧ a < 0x1100000 then .tile (0x10000000 + 0x1000000 * tileOf g + (a - 0x1000000))
  else if 0x8000000 ≤ a ∧ a < 0x8000000 + tileMemSize then .tile (tileMemAdr (tileOf g) (a - 0x8000000))
  else if a < 0x10000000 then .unmapped
  else sharedPlace (some (tileOf g)) a

/-- The tile whose memory a global address lies in. -/
def memTile (a : Nat) : Option Nat := windowPlace a

/-- The address of a word in its tile's own window, as TIL_MEMCEADDR shows it (R480). -/
def tileWindowAdr (a : Nat) : Nat :=
  let off := a % 0x1000000
  if off < 0x800000 then 0x1000000 + off else 0x8000000 + (off - 0x800000)

/-! ### Code words -/

/-- What decoding a word or a row gives (R456, R458). -/
inductive CodeStat where
  | clean
  /-- corrected; `outer`: by the outer code of a library row -/
  | fixed (outer : Bool)
  | bad
  deriving DecidableEq, Repr

/-- The mark of a word. -/
def State.mark (s : State) (w : Nat) : Mark := mget {} s.marks w

/-- A (72,64) SEC-DED word (R456). -/
def markStat (m : Mark) : CodeStat :=
  if m.poison then .bad
  else if m.flips = 0 then .clean
  else if m.flips = 1 then .fixed false else .bad

/-- The key of the mark of a library row's word 8, its outer check bytes (R457). -/
def outerKey (row : Nat) : Nat := 0x100000000 + row
/-- The keys of the nine words of a library row. -/
def rowKeys (row : Nat) : List Nat := (List.range 8).map (fun i => row + 8 * i) ++ [outerKey row]

/-- A library row: inner words flagged and corrected, then the outer code (R458). -/
def State.rowStat (s : State) (row : Nat) : CodeStat :=
  let st := (rowKeys row).map (fun k => markStat (s.mark k))
  let poison := (rowKeys row).any (fun k => (s.mark k).poison)
  if poison then .bad
  else
    let f := st.countP (· == .bad)
    let e := ((rowKeys row).map (fun k => (s.mark k).wrong)).sum
    if 8 < 2 * e + 8 * f then .bad else if f = 1 ∨ 1 ≤ e then .fixed true
    else if st.any (· == .fixed false) then .fixed false else .clean

/-- The unit of coding that holds an address: its base and its decoding. -/
def codeBase (a : Nat) : Nat := if inLibrary a then a / 64 * 64 else a / 8 * 8
def codeSize (a : Nat) : Nat := if inLibrary a then 64 else 8
def State.codeStat (s : State) (a : Nat) : CodeStat :=
  if inLibrary a then s.rowStat (codeBase a) else markStat (s.mark (codeBase a))

/-- The state with the marks of a word or a row cleared. -/
def State.clearMarks (s : State) (base : Nat) : State :=
  if inLibrary base then { s with marks := (rowKeys base).foldl (fun m k => mdel m k) s.marks }
  else { s with marks := mdel s.marks base }

/-- The registers of a memory's unit: status, counts, addresses, and the source of its reports (R462, R542). -/
structure MemUnit where
  stat : Nat
  cnt : Nat
  ce : Nat
  ue : Nat
  /-- source IDs of corrected and uncorrectable -/
  srcCe : Nat
  srcUe : Nat
  /-- the address as the unit's registers show it -/
  shown : Nat
  deriving DecidableEq, Repr

/-- The unit that guards a global address. -/
def memUnit (a : Nat) : MemUnit :=
  match memTile a with
  | some t => ⟨Adr.TIL_MEMSTAT t, Adr.TIL_MEMCNT t, Adr.TIL_MEMCEADDR t, Adr.TIL_MEMUEADDR t, srcTile t 4, srcTile t 5,
      tileWindowAdr (codeBase a)⟩
  | none => ⟨Adr.BLK_LIBSTAT, Adr.BLK_LIBCNT, Adr.BLK_LIBCEADDR, Adr.BLK_LIBUEADDR, 0x1004, 0x1005, codeBase a⟩

/-- A correction is counted and, on CE's rise, recorded and reported (R462). -/
def State.noteCE (s : State) (a : Nat) (outer : Bool) : State :=
  let u := memUnit a
  let s := s.countSat u.cnt Bits.TIL_MEMCNT_CECNT
  let s := if outer then s.setBit u.stat 2 else s
  if s.bit u.stat 0 then s
  else ((s.setBit u.stat 0).setReg u.ce (BitVec.ofNat 64 u.shown)).report 0 u.srcCe (BitVec.ofNat 32 u.shown)

/-- An uncorrectable read is counted and, on UE's rise, recorded and reported (R462). -/
def State.noteUE (s : State) (a : Nat) : State :=
  let u := memUnit a
  let s := s.countSat u.cnt Bits.TIL_MEMCNT_UECNT
  if s.bit u.stat 1 then s
  else ((s.setBit u.stat 1).setReg u.ue (BitVec.ofNat 64 u.shown)).report 1 u.srcUe (BitVec.ofNat 32 u.shown)

/-- What a read delivers: its bytes, the address of the first word that was uncorrectable, and the state after the
counts. -/
structure Got where
  bytes : List Byte
  bad : Option Nat
  st : State

/-- Free bytes: what the manual does not state. -/
def State.freeBytes (s : State) : Nat → List Byte × State
  | 0 => ([], s)
  | n + 1 =>
    let f := s.free
    let r := f.2.freeBytes n
    (BitVec.ofNat 8 f.1.toNat :: r.1, r.2)

/-- A word with three flips or more, which its code is not stated to meet (R456), comes to one outcome when it is first
decoded, and the manual leaves it open (log 43). In a tile's memory: uncorrectable, or data that is open, with a correction
or without. In a library row: flagged by the inner code, or left with 1 to 8 erroneous bytes, which the outer code corrects
up to 4, and of more either reports or takes for another code word, whose data is open (R458). -/
def State.settleWord (s : State) (base k : Nat) : State :=
  if (s.mark k).flips < 3 ∨ (s.mark k).poison then s
  else
    let f := s.free
    let v := f.1
    let s := f.2
    let open_ (s : State) (a : Nat) : State :=
      let d := s.free
      { d.2 with mem := memWrite d.2.mem a (leBytes 8 d.1.toNat) }
    if bitOf v 0 then { s with marks := mset s.marks k { flips := 2 } }
    else if inLibrary base then
      let e := v.toNat / 4 % 8 + 1
      if e ≤ 4 ∨ bitOf v 1 then { s with marks := mset s.marks k { flips := 1, wrong := e } }
      else
        let s := if k < 0x100000000 then open_ s k else s
        { s with marks := mset s.marks k { flips := 1, wrong := 4 } }
    else
      let s := open_ s base
      { s with marks := if bitOf v 1 then mset s.marks k { flips := 1 } else mdel s.marks k }

/-- Every such word of the unit of coding at a base. -/
def State.settle (s : State) (base : Nat) : State :=
  (if inLibrary base then rowKeys base else [base]).foldl (fun s k => s.settleWord base k) s

/-- The same of the words or rows at the ends of `n` bytes, which a write covers in part. -/
def State.settleEnds (s : State) (a n : Nat) : State := (s.settle (codeBase a)).settle (codeBase (a + n - 1))

/-- One unit of coding is read for the bytes `[a, a + n)` that lie in it. -/
def State.readUnit (s : State) (a n : Nat) : Got :=
  let base := codeBase a
  let s := s.settle base
  match s.codeStat a with
  | .clean => ⟨memBytes s.mem a n, none, s⟩
  | .fixed o => ⟨memBytes s.mem a n, none, { s.noteCE a o with writebacks := s.writebacks ++ [base] }⟩
  | .bad => ⟨memBytes s.mem a n, some a, s.noteUE a⟩

/-- A read of `n` bytes from a global address, unit by unit. -/
def State.readMem (s : State) (a : Nat) : (fuel n : Nat) → Got
  | 0, _ => ⟨[], none, s⟩
  | fuel + 1, n =>
    let room := codeBase a + codeSize a - a
    if n ≤ room then s.readUnit a n
    else
      let g := s.readUnit a room
      let h := g.st.readMem (a + room) fuel (n - room)
      ⟨g.bytes ++ h.bytes, g.bad.or h.bad, h.st⟩

/-- A read of `n` bytes, at most 64, from a global address. -/
def State.load (s : State) (a n : Nat) : Got := s.readMem a 16 n

/-- A read of `n` bytes from a global address that shares the accesses to the words in `seen` (R451): the units of coding not
yet read are decoded and counted once each. Answers what it delivers and the units read so far. -/
def State.loadShared (s : State) (seen : List Nat) (a n : Nat) : Got × List Nat :=
  let units := [codeBase a, codeBase (a + n - 1)].eraseDups
  let new := units.filter (fun b => !seen.contains b)
  let s := new.foldl (fun s b => (s.readUnit b 1).st) s
  (⟨memBytes s.mem a n, units.find? (fun b => s.codeStat b == .bad), s⟩, seen ++ new)

/-- The error injection that a write covering a whole word or row meets (R463). -/
def State.inject (s : State) (base : Nat) : State :=
  match memTile base with
  | some t =>
    let c := Adr.TIL_MEMINJCTL t
    let armed := (s.reg (Adr.TIL_MEMINJ t)).toNat / 8 * 8
    if s.get c Bits.TIL_MEMINJCTL_ARM = 1 ∧ (armed = tileWindowAdr base ∨ armed = base) then
      let n := popcWord (BitVec.ofNat 32 (s.get c Bits.TIL_MEMINJCTL_FLIP))
      let s := s.put c Bits.TIL_MEMINJCTL_ARM 0
      if n = 0 then s else { s with marks := mset s.marks base { flips := n } }
    else s
  | none =>
    let c := Adr.BLK_LIBINJCTL
    if s.get c Bits.BLK_LIBINJCTL_ARM = 1 ∧ (s.reg Adr.BLK_LIBINJ).toNat / 64 * 64 = base then
      let n := popcWord (BitVec.ofNat 32 (s.get c ⟨0, 8⟩))
      let w := s.get c Bits.BLK_LIBINJCTL_WORD
      let s := s.put c Bits.BLK_LIBINJCTL_ARM 0
      if n = 0 then s
      else { s with marks := mset s.marks (if w = 8 then outerKey base else base + 8 * w) { flips := n } }
    else s

/-- The bytes of one unit of coding are written: whole, or merged into what it holds (R453, R456, R460). -/
def State.writeUnit (s : State) (a : Nat) (bytes : List Byte) : State :=
  let base := codeBase a
  let s := if bytes.length = codeSize a then s else s.settle base
  let s' := { s with mem := memWrite s.mem a bytes, writebacks := s.writebacks.filter (· != base) }
  if bytes.length = codeSize a then (s'.clearMarks base).inject base
  else
    match s.codeStat a with
    | .clean => s'
    | .fixed o => (s'.clearMarks base).noteCE a o
    | .bad =>
      let s' := s'.clearMarks base
      { s' with marks := mset s'.marks base { poison := true } }.noteUE a

/-- A link is cleared by a write to any byte of its granule (R314). -/
def State.clearLinks (s : State) (a n : Nat) : State :=
  { s with engines := s.engines.map (fun p =>
      (p.1, match p.2.link with
        | some w => if w < a + n ∧ a < w + 8 then { p.2 with link := none } else p.2
        | none => p.2)) }

/-- The STATE lock (R181): whether the context that holds byte `a` keeps its STATE. -/
def chanLocked (m : Memory) (a : Nat) : Bool :=
  let st := (memRd m (a / 8 * 8 + 7)).toNat / 16
  inChannels a && (st == 2 || 4 ≤ st)

/-- The byte that a write at `a` stores: under the STATE lock the top nibble of a context keeps its value. -/
def lockByte (m : Memory) (unlock : Bool) (a : Nat) (b : Byte) : Byte :=
  if a % 8 = 7 ∧ chanLocked m a ∧ !unlock then
    BitVec.ofNat 8 ((memRd m a).toNat / 16 * 16 + b.toNat % 16)
  else b

/-- The bytes that a write stores from `a` on. -/
def lockBytes (m : Memory) (unlock : Bool) : Nat → List Byte → List Byte
  | _, [] => []
  | a, b :: r => lockByte m unlock a b :: lockBytes m unlock (a + 1) r

/-- Unit by unit. -/
def State.writeUnits (s : State) (a : Nat) : (fuel : Nat) → List Byte → State
  | 0, _ => s
  | fuel + 1, bytes =>
    let room := codeBase a + codeSize a - a
    if bytes.length ≤ room then s.writeUnit a bytes
    else (s.writeUnit a (bytes.take room)).writeUnits (a + room) fuel (bytes.drop room)

/-- A write to a global address. `unlock`: an engine store or atomic in ring 0, or the debug master (R181). -/
def State.store (s : State) (unlock : Bool) (a : Nat) (bytes : List Byte) : State :=
  ((s.clearLinks a bytes.length).writeUnits a 1100 (lockBytes s.mem unlock a bytes))

/-- The state with a word or row restored by a write-back (R461), when nothing has written it meanwhile. -/
def State.writeBack (s : State) (base : Nat) : State :=
  match s.codeStat base with
  | .fixed _ => s.clearMarks base
  | _ => s

end Sys2Proof.Machine
end

