-- ==== Sys2Proof/Machine/EngState.lean ====
section
/-!
DEFINITION. Views of an engine's state: its PSW, ring, stacks, context, mode, and the counters of R344.
-/

namespace Sys2Proof.Machine

/-! ### PSW (R251) -/

def pswGet (p : Word) (f : Fld) : Nat := getBits p.toNat f.lo f.w
def pswPut (p : Word) (f : Fld) (x : Nat) : Word := BitVec.ofNat 32 (putBits p.toNat f.lo f.w x)

/-- The current ring, interrupt level and flags of an engine. -/
def Engine.ring (e : Engine) : Nat := pswGet e.arch.psw Bits.PSW_RING
def Engine.ipl (e : Engine) : Nat := pswGet e.arch.psw Bits.PSW_IPL
def Engine.cflag (e : Engine) : Bool := pswGet e.arch.psw Bits.PSW_C == 1

/-- PSW.GM as it reads and acts (R35, R36): 0 in RUN, and 0 after RUN until software writes it. -/
def State.gm (s : State) (g : Nat) : Bool :=
  let e := s.eng g
  pswGet e.arch.psw Bits.PSW_GM == 1 && s.mode != modeRun && e.gmEpoch == s.gmEpoch

/-- The PSW as it reads (R251): GM under R35 and R36, FIRM while a window is open. -/
def State.psw (s : State) (g : Nat) : Word :=
  let e := s.eng g
  pswPut (pswPut e.arch.psw Bits.PSW_GM (bnat (s.gm g))) Bits.PSW_FIRM (bnat (0 < e.firm))

/-- The nesting depth ND of R402. -/
def Engine.nd (e : Engine) : Nat := e.arch.exring.length

/-- The ring and the protection regions that govern checks: those of the oldest mode change that has not settled
(R340). -/
def Engine.effRing (e : Engine) : Nat :=
  match e.arch.settles.find? (fun x => 0 < x.left) with
  | none => e.ring
  | some x => x.ring
def Engine.effPr (e : Engine) : List Word :=
  match e.arch.settles.find? (fun x => 0 < x.left) with
  | none => e.arch.pr
  | some x => x.pr

/-- The PSW bits an instruction's flags write (R253): SAT is sticky. -/
def pswFlags (p : Word) (f : Fx) : Word :=
  let p := match f.c with
    | some b => pswPut p Bits.PSW_C (bnat b)
    | none => p
  let p := match f.v with
    | some b => pswPut p Bits.PSW_V (bnat b)
    | none => p
  if f.sat then pswPut p Bits.PSW_SAT 1 else p

/-! ### Counters (R344, R345) -/

/-- The event counters by their place after 0x40. -/
def pcCycles : Nat := 0
def pcRetired : Nat := 1
def pcBranches : Nat := 3
def pcPaired : Nat := 2
def pcMispred : Nat := 4
def pcSquashed : Nat := 5
def pcBtbHit : Nat := 6
def pcIcMiss : Nat := 7
def pcIcParity : Nat := 8
def pcLoadWait : Nat := 9
def pcMdWait : Nat := 10
def pcSbFull : Nat := 11
def pcSbFwd : Nat := 12
def pcSbOverlap : Nat := 13
def pcBankLost : Nat := 14
def pcFigStall : Nat := 15
def pcSyncWait : Nat := 16
def pcSpills : Nat := 17
def pcFills : Nat := 18
def pcEntries : Nat := 19
def pcSwitches : Nat := 20
def pcCtFull : Nat := 21

/-- Whether events of ring `r` count (R345). -/
def perfOn (ctl : Word) (r : Nat) : Bool := !getBit ctl.toNat 8 && getBit ctl.toNat r

/-- A counter plus `n`, for an event of ring `r` (R345). -/
def Engine.countIn (e : Engine) (r i : Nat) (n : Nat := 1) : Engine :=
  if perfOn e.arch.perfCtl r then
    { e with arch := { e.arch with perf := setAt e.arch.perf i (e.arch.perf.getD i 0 + BitVec.ofNat 32 n) } }
  else e

/-- A counter plus `n`, for an event of the current ring. -/
def Engine.count (e : Engine) (i : Nat) (n : Nat := 1) : Engine := e.countIn e.ring i n

/-- The ring of the oldest unretired instruction, under which cycles count (R345). -/
def Engine.oldRing (e : Engine) : Nat :=
  match e.flights with
  | f :: _ => pswGet f.before.psw Bits.PSW_RING
  | [] => e.ring

/-- A count of cycles plus `n` (R345). -/
def Engine.countCycle (e : Engine) (i : Nat) (n : Nat := 1) : Engine := e.countIn e.oldRing i n

/-- The counters when an engine goes back to a boundary where they held `old`: instructions that have not retired after
all no longer count as retired, and every other event stays counted (R344; DEDUCED, log 111). -/
def perfBack (now old : List Word) : List Word :=
  let put (l : List Word) (i : Nat) : List Word :=
    if (old.getD i 0).toNat ≤ (now.getD i 0).toNat then setAt l i (old.getD i 0) else l
  put (put now pcRetired) pcBranches

/-! ### Stacks (R347, R349) -/

/-- The offset of a stack pointer, the area it names, and the bounds of a limit register. -/
def spOff (p : Word) : Nat := p.toNat % 65536
def spArea (p : Word) : Nat := p.toNat / 65536
def limBase (l : Word) : Nat := l.toNat / 65536
def limTop (l : Word) : Nat := l.toNat % 65536

/-- The depth of a stack in cells, cached cells included. -/
def stkDepth (sp lim : Word) : Nat := (spOff sp - limBase lim) / 4

/-- The pointer moved by `n` cells. -/
def spMove (p : Word) (n : Int) : Word := p + BitVec.ofInt 32 (4 * n)

/-- The address of the cell `i` below a pointer (0 the top). The form of R347 is the byte address: AREA 0 names the own
scratchpad's local addresses, AREA 0x0100 + e the tile window. -/
def cellForm (p : Word) (i : Nat) : Word := spMove p (-(i + 1 : Int))

/-- The checks of a pointer against a limit register (R348). -/
def areaOk (p : Word) : Bool := spArea p == 0 || (0x100 ≤ spArea p && spArea p ≤ 0x10F)
def ptrIn (p lim : Word) : Bool := limBase lim ≤ spOff p && spOff p ≤ limTop lim + 4
def limOk (lim : Word) : Bool := limBase lim % 4 == 0 && limTop lim % 4 == 0 && limTop lim ≤ 0xFFF8

/-- The least free cells that an instruction boundary keeps, as the most cells cached (R352). -/
def maxCachedD : Nat := 26
def maxCachedR : Nat := 12

/-! ### Sizes that differ between lead and stream engines (R321, R337, R340) -/

def sbSize (g : Nat) : Nat := if isLead g then 12 else 8
def ctSize (g : Nat) : Nat := if isLead g then 16 else 12
def maxLoads (g : Nat) : Nat := if isLead g then 6 else 4
def settleCount (g : Nat) : Nat := if isLead g then 4 else 3
def icSets (g : Nat) : Nat := if isLead g then 128 else 64

/-! ### Contexts (R358, R379) -/

/-- Whether an engine runs a context, and which (CAL_ENGk). -/
def State.placed (s : State) (g : Nat) : Bool := s.get (Adr.CAL_ENG (tileOf g) (engOf g)) Bits.CAL_ENG_PLACED == 1
def State.ctxOf (s : State) (g : Nat) : Nat := s.get (Adr.CAL_ENG (tileOf g) (engOf g)) Bits.CAL_ENG_CTX

/-- CTXN: generation and number of the running context (R358). -/
def State.ctxn (s : State) (g : Nat) : Nat :=
  let c := s.ctxOf g
  if s.placed g then s.get (Adr.CAL_CTX_CTL (tileOf g) c) Bits.CAL_CTX_CTL_GEN * 512 + c else 0

end Sys2Proof.Machine
end

