-- ==== Sys2Proof/Machine/Micro.lean ====
section
/-!
DEFINITION. The micro-programs of the vertical control stores (R486 to R492): how the words of a store follow one another,
and how an instruction's micro-program ends. The encodings of SEL and ARG for UOP 1 to 9 and 11 belong to the microcode
release (R489); what those words do to the engine is the instruction's effect as the two Onalen chapters state it
(PRESUMED, log 112).
-/

namespace Sys2Proof.Machine

/-- A vertical micro-operation (R486). -/
structure MicroOp where
  nxt : Nat
  cond : Nat
  adr : Nat
  uop : Nat
  sel : Nat
  arg : Nat
  deriving DecidableEq, Repr

/-- The fields of a word. -/
def microOp (w : Nat) : MicroOp :=
  { nxt := getBits w 29 3, cond := getBits w 25 4, adr := getBits w 14 11, uop := getBits w 10 4,
    sel := getBits w 6 4, arg := getBits w 0 6 }

/-- The words of an engine's store (R483). -/
def microWords (g : Nat) : Nat := if isLead g then 2048 else 1024

/-- Whether a COND value is reserved (R488). -/
def condReserved (c : Nat) : Bool := 11 ≤ c

/-- Whether a word holds a reserved NXT or UOP, or a reserved COND that its NXT reads (R487 to R489, R492). -/
def MicroOp.reserved (m : MicroOp) : Bool := 5 ≤ m.nxt || 12 ≤ m.uop || (m.nxt == 1 && condReserved m.cond)

/-- Whether the COND of the word at `a` holds (R488). The result of a micro-operation (3, 4) and the moment at which a
memory response arrives (7) are the release's: they are free, and so is a top cell whose value is not known yet (log
112). -/
def State.condHolds (s : State) (g left a c : Nat) : Bool :=
  let e := s.eng g
  let open_ : Bool := Config.microHolds s.fresh left a c (e.arch.bank.ds.map (fun x => x.val))
  match c with
  | 0 => true
  | 1 => pswGet e.arch.psw Bits.PSW_C == 1
  | 2 => pswGet e.arch.psw Bits.PSW_V == 1
  | 5 => match e.arch.bank.ds.head? with
    | some x => if x.wait.isNone && !x.poison then x.val != 0 else open_
    | none => open_
  | 6 => e.flights.any (fun f => f.kind == .mul || f.kind == .div)
  | 8 => e.link.isSome
  | 9 => e.arch.bar != 0
  | 10 => e.ring == 0
  | _ => open_

/-- How a micro-program ends. -/
inductive MicroEnd where
  /-- at a DISP with the micro-stack empty: the instruction is complete -/
  | done
  /-- the word at an address fails its parity (R498) -/
  | parity (a : Nat)
  /-- an error of R492 -/
  | broken
  /-- a word raises the exception of a cause code (UOP 10, R489) -/
  | raises (code : Nat)
  /-- it has not ended -/
  | runs
  deriving DecidableEq, Repr

/-- A micro-program from the word at `a` on, with the micro-stack `st` (R487, R492). The micro-stack is empty at every
instruction boundary, so it is no state between instructions. -/
def State.microWalk (s : State) (g : Nat) : (left a : Nat) → (st : List Nat) → MicroEnd
  | 0, _, _ => .runs
  | left + 1, a, st =>
    let w := s.storeWord (vertKey g a)
    let m := microOp w.val.toNat
    if microWords g ≤ a then .broken
    else if !w.vertOk then .parity a
    else if m.reserved then .broken
    else if m.uop = 10 then .raises m.arg
    else match m.nxt with
      | 0 => s.microWalk g left (a + 1) st
      | 1 => s.microWalk g left (if s.condHolds g left a m.cond then m.adr else a + 1) st
      | 2 => if st = [] then .done else .broken
      | 3 => if 4 ≤ st.length then .broken else s.microWalk g left m.adr ((a + 1) :: st)
      | _ => match st with
        | [] => .broken
        | b :: r => s.microWalk g left b r

end Sys2Proof.Machine
end

