-- ==== Sys2Proof/Machine/Opcode.lean ====
section
/-!
DEFINITION. The opcode map as the decoder judges bytes: lengths, illegal encodings, and what a delay slot may hold
(R249, R261, R262, R287).
-/

namespace Sys2Proof.Machine

/-- The rings that read a special register: 0 (ring 0 alone) or 3 (every ring); none when the table does not list it. -/
def srReadRing (n : Nat) : Option Nat :=
  if n = 5 ∨ (0x10 ≤ n ∧ n ≤ 0x1F) then some 0
  else if n ≤ 0x0E ∨ (0x40 ≤ n ∧ n ≤ 0x5F) then some 3
  else none

/-- The highest ring that writes a special register; none when nothing writes it or the table does not list it. PSW
follows R252 in every ring. -/
def srWriteRing (n : Nat) : Option Nat :=
  if n = 0 ∨ n = 6 ∨ n = 7 ∨ n = 8 then some 3
  else if n = 0x0E then some 1
  else if n ≤ 0x0B ∨ (0x10 ≤ n ∧ n ≤ 0x1F) ∨ (0x40 ≤ n ∧ n ≤ 0x5F) then some 0
  else none

/-- The length of an instruction by its opcode; 0 where R261 and R262 make it illegal. -/
def opLen (op : Nat) : Nat :=
  if op < 0x20 then 1
  else if op < 0x30 then (if op = 0x27 then 2 else 1)
  else if op < 0x40 then (if 0x39 ≤ op ∧ op ≤ 0x3B then 2 else 1)
  else if op < 0x50 then (if op = 0x46 ∨ op = 0x4F then 2 else 1)
  else if op < 0x5C then 1
  else if op < 0x60 then 0
  else if op < 0x6F then 1
  else if op = 0x6F then 0
  else if op < 0x7F then 1
  else if op = 0x7F then 0
  else if op < 0xA0 then
    match op with
    | 0x80 => 2 | 0x81 => 3 | 0x82 => 5 | 0x83 => 3 | 0x84 => 5 | 0x85 => 1 | 0x86 => 1 | 0x87 => 1
    | 0x88 => 2 | 0x89 => 3 | 0x8A => 2 | 0x8B => 3 | 0x8C => 2 | 0x8D => 3 | 0x8E => 2 | 0x8F => 3
    | 0x90 => 2 | 0x91 => 2 | 0x92 => 1 | _ => 0
  else if op < 0xB6 then
    (if op = 0xAC ∨ op = 0xAD then 5 else if op = 0xAA ∨ op = 0xAB ∨ op = 0xAE ∨ op = 0xAF then 2 else 1)
  else if op < 0xC0 then 0
  else match op with
    | 0xC0 => 2 | 0xC1 => 1 | 0xC2 => 1 | 0xC3 => 3 | 0xC4 => 2 | 0xC5 => 2 | 0xC6 => 1 | 0xC7 => 1
    | 0xC8 => 1 | 0xC9 => 1
    | 0xD0 => 2 | 0xD1 => 2 | 0xD2 => 3 | 0xD3 => 3 | 0xD4 => 5 | 0xD5 => 2 | 0xD6 => 2
    | 0xE0 => 1 | 0xE1 => 1 | 0xE2 => 1 | 0xE3 => 1 | 0xE4 => 1 | 0xE5 => 1 | 0xE6 => 1 | 0xE7 => 2
    | 0xE8 => 2 | 0xE9 => 2 | 0xEA => 1 | 0xEB => 1 | 0xEC => 1 | 0xED => 1
    | _ => 0

/-- Whether a second byte lies outside the values that its instruction allows (R262). -/
def operandIllegal (op b : Nat) : Bool :=
  match op with
  | 0x27 => 16 ≤ b
  | 0x39 | 0x3A | 0x3B => 32 ≤ b
  | 0x4F => b != 8 && b != 16
  | 0xC4 => 2 ≤ b
  | 0xD5 => (srReadRing b).isNone
  | 0xD6 => (srWriteRing b).isNone
  | 0xE7 => 64 ≤ b
  | _ => false

/-- Whether an opcode is barred from a delay slot (R287). -/
def slotBarred (op : Nat) : Bool := (0x80 ≤ op && op ≤ 0x91) || (0xC0 ≤ op && op ≤ 0xC3) || (0xC8 ≤ op && op ≤ 0xCF)

/-- Whether the bytes of an instruction make an illegal encoding: the opcode, or an operand byte of it (R262). -/
def illegalBytes : List Byte → Bool
  | [] => false
  | [op] => opLen op.toNat == 0
  | op :: b :: _ => opLen op.toNat == 0 || (2 ≤ opLen op.toNat && operandIllegal op.toNat b.toNat)

end Sys2Proof.Machine
end

