-- ==== Sys2Proof/Machine/Operands.lean ====
section
/-!
DEFINITION. The operand forms of the instructions: literals, displacements and the lengths they give (R260, R268, R284,
R298).
-/

namespace Sys2Proof.Machine

/-- The byte length of a branch with a displacement (R284). -/
def Disp.len : Disp → Nat
  | .rel8 _ => 2
  | .rel16 _ => 3
  | .rel32 _ => 5

/-- A displacement, sign-extended. -/
def Disp.val : Disp → Word
  | .rel8 d => d.signExtend 32
  | .rel16 d => d.signExtend 32
  | .rel32 d => d

/-- Whether a displacement is negative, which makes static prediction take the branch (R290). -/
def Disp.neg (d : Disp) : Bool := (Disp.val d).msb

/-- The address of a D form: a plus the signed displacement times the width (R298). -/
def dispAddr (a : Word) (d : BitVec 8) (scale : Nat) : Word := a + BitVec.ofNat 32 scale * d.signExtend 32

/-- What a load makes of the bytes it read: zero- or sign-extended to a cell (R298). -/
def loadCell (sx : Bool) (bytes : List Byte) : Word :=
  let n := leVal bytes
  if sx then BitVec.ofInt 32 (toSigned (8 * bytes.length) n) else BitVec.ofNat 32 n

/-- The cells that a load of `bytes` pushes, top first: one, or hi and lo for 8 bytes (R298). -/
def loadCells (sx : Bool) (bytes : List Byte) : List Word :=
  if bytes.length = 8 then [BitVec.ofNat 32 (leVal (bytes.drop 4)), BitVec.ofNat 32 (leVal (bytes.take 4))]
  else [loadCell sx bytes]

end Sys2Proof.Machine
end

