-- ==== Sys2Proof/Machine/Trigger.lean ====
section
/-!
DEFINITION. The break and watch unit of a tile (R651 to R656): comparators, triggers, their arming and counts, and the
actions of a fire.
-/

namespace Sys2Proof.Machine

/-- A data access as the comparators see it (R652): its address, its bytes, its kinds and its value (the cell loaded or
written). -/
structure Access where
  adr : Nat
  size : Nat
  isLoad : Bool
  isStore : Bool
  value : Word
  /-- a conditional store that fails makes no access (R654) -/
  performed : Bool := true
  /-- an access whose value comes later: 1 before it (only a WATCH without data comparators is decided), 2 at its answer
  (everything else); 0: decided at once -/
  phase : Nat := 0
  deriving DecidableEq, Repr

/-- The range of ACk: itself, or up to AC(k+1) when k is even and RANGE is 1; an odd comparator that ends a range
matches nothing on its own (R652). -/
def State.acRange (s : State) (t k : Nat) : Option (Nat × Nat) :=
  let ctl := s.reg (Adr.DBG_AC_CTL t k)
  let a := (s.reg (Adr.DBG_AC_ADDR t k)).toNat
  if fldOf ctl Bits.DBG_AC_CTL_EN = 0 then none
  else if k % 2 = 1 ∧ s.get (Adr.DBG_AC_CTL t (k - 1)) Bits.DBG_AC_CTL_RANGE = 1 then none
  else if k % 2 = 0 ∧ fldOf ctl Bits.DBG_AC_CTL_RANGE = 1 then some (a, (s.reg (Adr.DBG_AC_ADDR t (k + 1))).toNat)
  else some (a, a)

/-- Whether ACk matches an instruction at `pc` with a data access. -/
def State.acMatch (s : State) (t k pc : Nat) (acc : Option Access) : Bool :=
  match s.acRange t k with
  | none => false
  | some (lo, hi) =>
    let kind := s.get (Adr.DBG_AC_CTL t k) Bits.DBG_AC_CTL_KIND
    if kind = 0 then lo ≤ pc && pc ≤ hi
    else match acc with
      | none => false
      | some x =>
        ((kind == 1 && x.isLoad) || (kind == 2 && x.isStore) || (kind == 3 && (x.isLoad || x.isStore))) &&
          x.adr ≤ hi && lo < x.adr + x.size

/-- Whether DCj matches (R652). -/
def State.dcMatch (s : State) (t j pc : Nat) (acc : Option Access) : Bool :=
  let ctl := s.reg (Adr.DBG_DC_CTL t j)
  let k := fldOf ctl Bits.DBG_DC_CTL_LINKA
  match acc with
  | none => false
  | some x =>
    let m := (s.reg (Adr.DBG_DC_MASK t j)).toNat
    let eq := bandN x.value.toNat m == bandN (s.reg (Adr.DBG_DC_VAL t j)).toNat m
    fldOf ctl Bits.DBG_DC_CTL_EN == 1 && s.get (Adr.DBG_AC_CTL t k) Bits.DBG_AC_CTL_KIND != 0 &&
      s.acMatch t k pc acc && (eq != (fldOf ctl Bits.DBG_DC_CTL_NEG == 1))

/-- Whether CCi matches an engine's context and ring (R652). -/
def State.ccMatch (s : State) (t i g : Nat) : Bool :=
  let c := s.reg (Adr.DBG_CC t i)
  let m := fldOf c Bits.DBG_CC_MASK
  fldOf c Bits.DBG_CC_EN == 1 && bandN (s.ctxn g) m == bandN (fldOf c Bits.DBG_CC_CTXN) m &&
    getBit (fldOf c Bits.DBG_CC_RINGS) (s.eng g).ring

/-- Whether a trigger is fetch-type: it selects only address comparators of KIND 0 (R653). -/
def State.fetchType (s : State) (t n : Nat) : Bool :=
  let sel := s.get (Adr.DBG_TRG_CTL t n) Bits.DBG_TRG_CTL_SEL
  sel % 256 == sel &&
    (List.range 8).all (fun k => !getBit sel k || s.get (Adr.DBG_AC_CTL t k) Bits.DBG_AC_CTL_KIND == 0)

/-- Whether trigger `n` matches (R653). -/
def State.trgMatch (s : State) (t n g pc : Nat) (acc : Option Access) : Bool :=
  let ctl := s.reg (Adr.DBG_TRG_CTL t n)
  let sel := fldOf ctl Bits.DBG_TRG_CTL_SEL
  fldOf ctl Bits.DBG_TRG_CTL_EN == 1 && getBit (s.get (Adr.DBG_TRG_ENG t n) Bits.DBG_TRG_ENG_ENG) (engOf g) &&
    sel != 0 &&
    (List.range 8).all (fun k => !getBit sel k || s.acMatch t k pc acc) &&
    (List.range 4).all (fun j => !getBit sel (8 + j) || s.dcMatch t j pc acc) &&
    (List.range 2).all (fun i => !getBit sel (12 + i) || s.ccMatch t i g)

/-- Whether trigger `n` is armed: always with SEQ 0; with SEQ 1 by a fire of PREV, never by its own number (R653). -/
def State.trgArmed (s : State) (t n : Nat) : Bool :=
  let ctl := s.reg (Adr.DBG_TRG_CTL t n)
  fldOf ctl Bits.DBG_TRG_CTL_SEQ == 0 || fldOf ctl Bits.DBG_TRG_CTL_ARMED == 1

/-- What a set of fires asks of the engine, beside the state they leave. -/
structure Fires where
  st : State
  /-- a WATCH fired: its trigger -/
  watch : Option Nat := none
  /-- a DEBUG fired: its trigger -/
  dbgReq : Option Nat := none

/-- The trace mark of an engine (R655). -/
def State.traceMark (s : State) (t n g pc dadr : Nat) : State :=
  let wp := s.get (Adr.DBG_TPTR t) Bits.DBG_TPTR_WP
  let id := g * 2 ^ 24 + n * 2 ^ 22 + s.ctxn g
  let w (j v : Nat) (s : State) : State := s.setReg (Adr.DBG_TMARK t (4 * wp + j)) (BitVec.ofNat 64 v)
  let s := w 0 (s.time.toNat % 2 ^ 32) (w 1 pc (w 2 dadr (w 3 id s)))
  (s.put (Adr.DBG_TPTR t) Bits.DBG_TPTR_WP ((wp + 1) % 16)).countSat (Adr.DBG_TPTR t) Bits.DBG_TPTR_COUNT

/-- The successors of a fire are armed, the fired trigger is disarmed when SEQ is 1, and LEFT reloads (R653). -/
def State.trgFired (s : State) (t n : Nat) : State :=
  let s := s.put (Adr.DBG_TRG_CNT t n) Bits.DBG_TRG_CNT_LEFT (s.get (Adr.DBG_TRG_CNT t n) Bits.DBG_TRG_CNT_RELOAD)
  let s := if s.get (Adr.DBG_TRG_CTL t n) Bits.DBG_TRG_CTL_SEQ = 1 then
      s.put (Adr.DBG_TRG_CTL t n) Bits.DBG_TRG_CTL_ARMED 0 else s
  (List.range 4).foldl (fun s m =>
    if m ≠ n ∧ s.get (Adr.DBG_TRG_CTL t m) Bits.DBG_TRG_CTL_SEQ = 1 ∧
        s.get (Adr.DBG_TRG_CTL t m) Bits.DBG_TRG_CTL_PREV = n then
      s.put (Adr.DBG_TRG_CTL t m) Bits.DBG_TRG_CTL_ARMED 1 else s) s

/-- A fire's ACTION (R654): WATCH and DEBUG record the address and the trigger, MARK writes a trace mark, BELL rings. -/
def Fires.act (f : Fires) (t n g pc : Nat) (acc : Option Access) : Fires :=
  let s := f.st
  let a := match acc with
    | some x => x.adr
    | none => pc
  match s.get (Adr.DBG_TRG_CTL t n) Bits.DBG_TRG_CTL_ACTION with
  | 1 => { f with
      st := (s.setReg (Adr.DBG_EHIT g) (BitVec.ofNat 64 a)).modEng g (fun e => { e with watchTrg := n }),
      watch := f.watch.or (some n) }
  | 2 => { f with
      st := (s.setReg (Adr.DBG_EHIT g) (BitVec.ofNat 64 a)).modEng g (fun e => { e with dbgTrg := n }),
      dbgReq := f.dbgReq.or (some n) }
  | 3 => { f with st := s.traceMark t n g pc (match acc with
      | some x => x.adr
      | none => 0) }
  | 4 => { f with st := { s with rings := s.rings ++
      [⟨s.get (Adr.DBG_TRG_ENG t n) Bits.DBG_TRG_ENG_BELL, .debug, none⟩] } }
  | _ => f

/-- Whether a trigger is decided at the point at which an access meets it: a WATCH on addresses alone before the access,
data comparators and the actions that count performed accesses once the value is there (R652, R654). -/
def State.trgNow (s : State) (t n : Nat) (acc : Option Access) : Bool :=
  let ctl := s.reg (Adr.DBG_TRG_CTL t n)
  let early := fldOf ctl Bits.DBG_TRG_CTL_ACTION == 1 && getBits (fldOf ctl Bits.DBG_TRG_CTL_SEL) 8 4 == 0
  match acc with
  | some x => x.phase == 0 || (x.phase == 1) == early
  | none => true

/-- One trigger meets one instruction or access. A data-type action other than WATCH counts only accesses performed;
arming by another trigger's fire holds from the next cycle, so `armed` is judged before. With `plain` the instruction makes
no access and has completed: the data-type triggers meet it. -/
def Fires.one (f : Fires) (t n g pc : Nat) (acc : Option Access) (plain armed : Bool) : Fires :=
  let s := f.st
  let watch := s.get (Adr.DBG_TRG_CTL t n) Bits.DBG_TRG_CTL_ACTION == 1
  let counts := match acc with
    | some x => x.performed || watch
    | none => true
  if armed && counts && s.trgNow t n acc && s.fetchType t n == (acc.isNone && !plain) && s.trgMatch t n g pc acc then
    let left := s.get (Adr.DBG_TRG_CNT t n) Bits.DBG_TRG_CNT_LEFT
    if 0 < left then { f with st := s.put (Adr.DBG_TRG_CNT t n) Bits.DBG_TRG_CNT_LEFT (left - 1) }
    else ({ f with st := s.trgFired t n }).act t n g pc acc
  else f

/-- Whether an opcode's instruction makes a data access (R298, R310). -/
def accessOp (op : Nat) : Bool := 0xA0 ≤ op && op ≤ 0xB5

/-- All triggers of the engine's tile meet an instruction at `pc`: with no access the fetch-type ones, with one the
data-type ones (R651). A data-type trigger that selects context comparators, and no comparator of an access, meets an
instruction without an access too (`plain`): every comparator that it selects matches that instruction (R653). -/
def State.triggers (s : State) (g pc : Nat) (acc : Option Access) (plain : Bool := false) : Fires :=
  let t := tileOf g
  if s.get (Adr.DBG_TCTL t) Bits.DBG_TCTL_EN = 0 then { st := s }
  else
    let armed := (List.range 4).map (fun n => s.trgArmed t n)
    (List.range 4).foldl (fun f n => f.one t n g pc acc plain (armed.getD n false)) { st := s }

end Sys2Proof.Machine
end

