-- ==== Sys2Proof/Machine/Ops.lean ====
section
/-!
DEFINITION. The shared operations of the engines: which accesses answer ERR, protection, raising an exception,
issue and retirement of an instruction, and the one operation over the stacks that every data instruction is.
-/

namespace Sys2Proof.Machine

/-! ### Which memory answers ERR -/

/-- Whether the GO word of a tile's march names the memory at an offset of the tile's global window (R480). -/
def marchTarget (w : Word) (off : Nat) : Bool :=
  let tgt := getBits w.toNat 26 2
  tgt == 2 || (tgt == 0 && 0x800000 ≤ off) || (tgt == 1 && off / 0x10000 == getBits w.toNat 22 4)

/-- Whether the GO word of a library march names the bank of an address (R452, R481). -/
def libTarget (w : Word) (a : Nat) : Bool := getBit w.toNat 23 || (a - 0x20000000) / 64 % 16 == getBits w.toNat 24 4

/-- Whether a March C− of a tile's memories covers a global address of it (R470). -/
def State.marchCovers (s : State) (t a : Nat) : Bool :=
  s.get (Adr.TIL_MARCHST t) Bits.TIL_MARCHST_BUSY == 1 && s.get (Adr.TIL_MARCHST t) Bits.TIL_MARCHST_OP == 2 &&
    marchTarget (mget 0 s.marches t) (a % 0x1000000)

/-- Whether a March C− of library banks covers an address of it (R452, R470). -/
def State.libMarchCovers (s : State) (a : Nat) : Bool :=
  s.get Adr.BLK_LIBMARCHST Bits.TIL_MARCHST_BUSY == 1 && s.get Adr.BLK_LIBMARCHST Bits.TIL_MARCHST_OP == 2 &&
    libTarget (mget 0 s.marches 12) a

/-- Whether a request to a memory address gets ERR: a fenced tile (R27), a tile in Off (R465), a March C− (R470). -/
def State.memErr (s : State) (a : Nat) : Bool :=
  match memTile a with
  | some t => s.tileFenced t || s.sleep t == 3 || s.marchCovers t a
  | none => s.libMarchCovers a

/-- Whether a request of `n` bytes meets such a memory at any of its words (R470). -/
def State.memErrs (s : State) (a n : Nat) : Bool :=
  (List.range ((a % 8 + n + 7) / 8)).any (fun i => s.memErr (max a ((a / 8 + i) * 8)))

/-- Whether an address lies in a LINE or RET area, which only the reel hub writes (R210). -/
def hubArea (a : Nat) : Bool := 0x20200000 ≤ a && a < 0x20400000 && 0x8000 ≤ (a - 0x20200000) % 0x40000 &&
  (a - 0x20200000) % 0x40000 < 0x38000

/-- Whether a write of `n` bytes gets ERR from its target. -/
def State.writeErr (s : State) (a n : Nat) : Bool := s.memErrs a n || hubArea a || hubArea (a + n - 1)

/-- Whether a write of `n` bytes meets ERR, or an uncorrectable word or row that it covers in part (R460). -/
def State.writeFails (s : State) (a n : Nat) : Bool :=
  let part (x : Nat) : Bool :=
    s.codeStat x == .bad && !(a ≤ codeBase x && codeBase x + codeSize x ≤ a + n)
  s.writeErr a n || part a || part (a + n - 1)

/-! ### Protection (R305, R306) -/

/-- Whether one region grants a byte to ring `r` for the kinds of `need` (bits of PRCTL: 4 R, 3 W, 2 X). -/
def regionGrants (base ctl : Word) (r a need : Nat) : Bool :=
  let c := ctl.toNat
  getBit c 5 && r ≤ getBits c 0 2 && bandN c need == need &&
    base.toNat / 64 ≤ a / 64 && a / 64 ≤ c / 64

/-- Whether some region grants a byte. -/
def byteGranted (pr : List Word) (r a need : Nat) : Bool :=
  (List.range 8).any (fun i => regionGrants (pr.getD (2 * i) 0) (pr.getD (2 * i + 1) 0) r a need)

/-- Whether an access of `n` bytes is allowed: from ring 0 always, else when every byte is granted (R306). -/
def allowed (pr : List Word) (r a n need : Nat) : Bool :=
  r == 0 || (List.range n).all (fun i => byteGranted pr r ((a + i) % 2 ^ 32) need)

def needR : Nat := 16
def needW : Nat := 8
def needX : Nat := 4

/-! ### Exceptions (R387, R388) -/

def excIllegal : Nat := 1
def excMisaligned : Nat := 2
def excBus : Nat := 3
def excProtection : Nat := 4
def excPrivilege : Nat := 5
def excGate : Nat := 6
def excStack : Nat := 7
def excWatch : Nat := 8
def excFigure : Nat := 9
def excLazy : Nat := 10
def excRestore : Nat := 11
def excDebug : Nat := 17
def excMachine : Nat := 18

/-- The boundary before an instruction: before the branch when the instruction is a delay slot (R288). The extended state
stays with the owner that a lazy swap gave it (R376), and the counters keep the events that have happened. -/
def Engine.rollback (e : Engine) : Engine :=
  match e.slot with
  | none => e
  | some sl => { e with
      arch := { sl.before with ext := e.arch.ext, perf := perfBack e.arch.perf sl.before.perf, perfCtl := e.arch.perfCtl }
      slot := none }

/-- An exception is raised. It is taken when the instruction is the oldest unretired one (R322): while an older
operation is in flight, the instruction waits instead. -/
def State.raise (s : State) (g : Nat) (x : Exc) : State :=
  let e := s.eng g
  if e.flights ≠ [] then s else s.setEng g { e.rollback with exc := some x }

/-- A deferred bus error is taken at a boundary (R324, R410): the oldest ERR that has arrived. -/
def State.takeDeferred (s : State) (g : Nat) : State :=
  let e := s.eng g
  match e.arrived with
  | [] => s
  | a :: r =>
    if e.flights ≠ [] then s
    else s.setEng g { e with arrived := r, exc := some { code := excBus, faddr := a.faddr, defer := true } }

/-! ### Interrupts that an engine can recognise (R390) -/

/-- The doorbell levels 0 to 3 that a tile has pending for an engine, as a bit mask: a source pends in TIL_PENDn, its
descriptor is in INTERRUPT mode and its MASK names the engine (R432). -/
def State.levelsPending (s : State) (g : Nat) : Nat :=
  let t := tileOf g
  (List.range 64).foldl (fun m n =>
    let p := (mget 0 s.regs (Adr.TIL_PEND t n)).toNat
    if p = 0 then m
    else (List.range 64).foldl (fun m b =>
      if getBit p b then
        let d := s.reg (Adr.BLK_DBDESC (64 * n + b))
        if fldOf d Bits.BLK_DBDESC_EN = 1 ∧ fldOf d Bits.BLK_DBDESC_MODE = 0 ∧
            getBit (fldOf d Bits.BLK_DBDESC_MASK) (engOf g) then m ||| 2 ^ fldOf d Bits.BLK_DBDESC_LEVEL else m
      else m) m) 0

/-- Whether E0 of the tile has a keeper call (R552). -/
def State.keeperCall (s : State) (g : Nat) : Bool :=
  isLead g && s.get (Adr.TIL_KCALL (tileOf g)) Bits.TIL_KCALL_PEND == 1

/-- The highest of the levels 0 to 4 that is recognisable, with the firm window as given: 4 the keeper call (R390). -/
def State.recognisableLevel (s : State) (g : Nat) (firmOpen : Bool) : Option Nat :=
  let e := s.eng g
  let lv := s.levelsPending g
  if s.gm g ∨ firmOpen then none
  else if s.keeperCall g ∧ e.ipl ≤ 4 then some 4
  else if getBit lv 3 ∧ e.ipl ≤ 3 then some 3
  else if getBit lv 2 ∧ e.ipl ≤ 2 then some 2
  else if getBit lv 1 ∧ e.ipl ≤ 1 then some 1
  else if getBit lv 0 ∧ e.ipl = 0 then some 0
  else none

/-- The highest interrupt that is recognisable, debug as 5 (R390). -/
def State.recognisable (s : State) (g : Nat) (firmOpen : Bool) : Option Nat :=
  let e := s.eng g
  if e.dbgPend ∧ !e.inMon ∧ e.ipl ≤ 6 then some 5 else s.recognisableLevel g firmOpen

/-- The cause code of a level (R387). -/
def levelCode (l : Nat) : Nat := 12 + l

/-! ### Issue -/

/-- Whether an engine is at a store to CAL_PARK whose response is outstanding, which is waited for (R364). -/
def Engine.parking (e : Engine) : Bool :=
  match e.hold with
  | .park _ => true
  | _ => false

/-- Whether an engine's context has been asked off and the engine stands at a boundary of R366. -/
def Engine.atSwitch (e : Engine) : Bool :=
  e.switchTo.isSome && e.slot.isNone && e.ipl == 0 && e.firm == 0 && e.exc.isNone && !e.parking

/-- Whether any source that wakes an engine from WAITI is pending, whatever IPL and GM hold (R392). -/
def State.anyPending (s : State) (g : Nat) : Bool :=
  s.levelsPending g != 0 || s.keeperCall g || (s.eng g).dbgPend

/-- Whether something holds an engine's issue: a store to CAL_PARK, a held access not released, or sleep in WAITI with no source
pending. -/
def State.held (s : State) (g : Nat) : Bool :=
  match (s.eng g).hold with
  | .none => false
  | .waiti => !s.anyPending g
  | .figTable _ released => !released
  | .park _ => true

/-- The command of UC_CMD that runs in a tile: OP and KIND. -/
def State.ucRuns (s : State) (t op kind : Nat) : Bool :=
  let c := (mget 0 s.ucCmds t).toNat
  s.get (Adr.UC_STAT t) Bits.UC_STAT_BUSY == 1 && getBits c 28 4 == op && getBits c 26 2 == kind

/-- Whether a RELOAD of its store stops an engine, at a boundary of R288 (R496). -/
def State.ucStops (s : State) (g : Nat) : Bool :=
  let t := tileOf g
  (s.eng g).slot.isNone && getBit (s.get (Adr.UC_MASK t) Bits.UC_MASK_MASK) (engOf g) &&
    (if isLead g then s.ucRuns t 1 1 else s.ucRuns t 1 0)

/-- Whether an engine issues instructions: its tile is in Run, neither it nor its tile is fenced or frozen, it runs a
context, no exception waits for entry, nothing holds it, and no switch is due. -/
def State.canIssue (s : State) (g : Nat) : Bool :=
  let e := s.eng g
  s.sleep (tileOf g) == 0 && !s.tileFenced (tileOf g) && !s.engFenced g && !e.frozen && s.placed g &&
    e.exc.isNone && !s.held g && !e.atSwitch && !s.ucStops g

/-- Whether an instruction's bytes may be fetched from an address: the own scratchpad, the own tile memory, library
memory, the external window (R307). -/
def fetchPlace (g a : Nat) : Bool :=
  match engPlace g a with
  | .own _ => true
  | .tile x => (scratchAdr g 0 ≤ x && x < scratchAdr g 0x10000) || 0x800000 ≤ x % 0x1000000
  | .fabric x => inLibrary x
  | .ext _ => true
  | _ => false

/-- The byte that the engine's fetch has at an address: in its line buffer or its cache (R327). -/
def State.fetchByte (s : State) (g a : Nat) : Option Byte :=
  let e := s.eng g
  let base := a / 32 * 32
  let inLine (l : ILine) : Option Byte := if l.adr = base then l.bytes[a - base]? else none
  let fromBuf := match e.line with
    | some l => inLine l
    | none => none
  fromBuf.or ((mget [] e.icache (a / 32 % icSets g)).findSome? inLine)

/-- Whether `n` bytes of code are at hand (R328: an instruction that spans two lines waits for both). -/
def State.atHand (s : State) (g a n : Nat) : Bool :=
  (List.range n).all (fun i => (s.fetchByte g ((a + i) % 2 ^ 32)).isSome)

/-- The fault of an instruction fetch of `len` bytes at `pc`, by its code (R306, R307, R459). -/
def State.fetchFault (s : State) (g pc len : Nat) : Option Nat :=
  let e := s.eng g
  if !allowed e.effPr e.effRing pc len needX then some excProtection
  else if !(List.range len).all (fun i => fetchPlace g ((pc + i) % 2 ^ 32)) then some excBus
  else match e.line with
    | some l => if l.bad && l.adr < pc + len && pc < l.adr + 32 then some excBus else none
    | none => none

/-- The micro-program of the instruction at the program counter (R490). -/
def State.dispatch (s : State) (g : Nat) : MicroEnd :=
  s.microWalk g 4096 ((s.fetchByte g (s.eng g).arch.pc.toNat).getD 0).toNat []

/-- A machine check: a parity error in a store word, which UC_ERR and PERRCNT take (R498), or an error of R492. Its entry
is a last gasp. -/
def State.machineCheck (s : State) (g : Nat) (parity : Option Nat) : State :=
  if (s.eng g).flights ≠ [] then s
  else
    let s := match parity with
      | some a => s.ucError (tileOf g) (bnat (isLead g)) (engOf g) a
      | none => s
    s.raise g { code := excMachine }

/-! ### The delay slot (R287, R288) -/

/-- What a branch finds of its delay slot: its bytes are still to come, cannot be fetched, may not stand there, or are an
instruction of so many bytes. -/
inductive SlotSeen where
  | away
  | fault (code : Nat)
  | illegal
  | here (len : Nat)
  deriving DecidableEq, Repr

/-- The delay slot at an address (R287, R288, R307). -/
def State.slotSeen (s : State) (g a : Nat) : SlotSeen :=
  match s.fetchFault g a 1, s.fetchByte g a with
  | some c, _ => .fault c
  | none, none => .away
  | none, some b =>
    let op := b.toNat
    if opLen op == 0 || slotBarred op then .illegal
    else match s.fetchFault g a (opLen op) with
      | some c => .fault c
      | none =>
        if !s.atHand g a (opLen op) then .away
        else if 2 ≤ opLen op && operandIllegal op ((s.fetchByte g ((a + 1) % 2 ^ 32)).getD 0).toNat then .illegal
        else .here (opLen op)

/-- The length of the delay slot at an address, when its bytes are at hand and may stand there. -/
def State.slotLen (s : State) (g a : Nat) : Option Nat :=
  match s.slotSeen g (a % 2 ^ 32) with
  | .here n => some n
  | _ => none

/-- The settle counts after an instruction has retired (R341). -/
def settleTick (l : List Settle) : List Settle := l.map (fun x => { x with left := x.left - 1 })

/-- A step that is armed sets the debug request after an instruction, or a branch with its slot (R648). -/
def Engine.stepDone (e : Engine) : Engine :=
  if e.stepping && e.slot.isNone then { e with stepping := false, dbgPend := true, dbgReason := 3 } else e

/-- The events that every retirement counts, in the ring `r` in which the instruction ran: PC_RETIRED, and a miss of the
instruction's line (R344, R345). -/
def Engine.retireCount (e : Engine) (r : Nat) : Engine :=
  let e := e.countIn r pcRetired
  match e.missed with
  | some l => if e.arch.pc.toNat / 32 * 32 = l then { e.countIn r pcIcMiss with missed := none } else e
  | none => e

/-- A line is written into the cache: the least recently used of two ways goes. A line from which an instruction issued
becomes the latest used; another one leaves the order as it was (R327, R328). -/
def Engine.cacheLine (e : Engine) (g : Nat) (l : ILine) : Engine :=
  if l.bad then e
  else
    let k := l.adr / 32 % icSets g
    let ways := (mget [] e.icache k).filter (fun x => x.adr != l.adr)
    let new := { l with used := false }
    { e with icache := mset e.icache k (if l.used then (new :: ways).take 2 else ways.take 1 ++ [new]) }

/-- A line comes into the line buffer, and the line that stood there goes into the cache. -/
def Engine.bufferLine (e : Engine) (g : Nat) (l : ILine) : Engine :=
  let e := match e.line with
    | some x => e.cacheLine g x
    | none => e
  { e with line := some l }

/-- An instruction issues from a line: the line buffer's, or a way of the cache, which becomes the latest used of its
set (R327). -/
def Engine.useLine (e : Engine) (g base : Nat) : Engine :=
  let k := base / 32 % icSets g
  if e.line.any (fun l => l.adr == base) then { e with line := e.line.map (fun l => { l with used := true }) }
  else match mget [] e.icache k with
    | [x, y] => if y.adr = base then { e with icache := mset e.icache k [y, x] } else e
    | _ => e

/-- The instruction of `len` bytes at the program counter issues from its lines; with fetch gone on to another line, a
line in the buffer that has been used goes into the cache (R327, R328; DEDUCED, log 13). -/
def Engine.touchLine (e : Engine) (g len : Nat) : Engine :=
  let pc := e.arch.pc.toNat
  let last := (pc + len - 1) % 2 ^ 32 / 32 * 32
  let e := (e.useLine g (pc / 32 * 32)).useLine g last
  match e.line with
  | some l => if l.used && l.adr != last then ({ e with line := none } : Engine).cacheLine g l else e
  | none => e

/-- A spill stops once 12 data or 8 return cells are free (R353). -/
def Engine.spillsStop (e : Engine) : Engine :=
  { e with
    spillD := e.spillD && decide (20 < e.arch.bank.ds.length)
    spillR := e.spillR && decide (8 < e.arch.bank.rs.length) }

/-! ### Stack memory -/

/-- The global address of the cell at a stack address of an engine. -/
def stkAdr (g : Nat) (p : Word) : Nat :=
  match engPlace g p.toNat with
  | .own a | .tile a => a
  | _ => scratchAdr g (p.toNat % 65536)

/-- The words of poisoned cells are poisoned in memory too (DESIGN CHOICE, log 12). -/
def State.poisonCells (s : State) (g : Nat) (sp : Word) : List Cell → State
  | [] => s
  | c :: r =>
    let s := s.poisonCells g (spMove sp (-1)) r
    if c.poison then { s with marks := mset s.marks (stkAdr g (cellForm sp 0) / 8 * 8) { poison := true } } else s

/-- Cells are written to their places, the first at the place below the pointer; a word of two cells is written whole
(R353). -/
def State.spillCells (s : State) (g : Nat) (sp : Word) (cells : List Cell) : State :=
  let a := stkAdr g (spMove sp (-(cells.length : Int)))
  (s.store false a (cells.reverse.flatMap (fun c => leBytes 4 c.val.toNat))).poisonCells g sp cells

/-- What a run of stack reads has come to: the cells, the words read so far, and the state. -/
structure Fill where
  cells : List Cell := []
  seen : List Nat := []
  st : State

/-- The cell at a stack place, poisoned when its word is uncorrectable (R356); the cells of one word are read in one access. -/
def Fill.cell (f : Fill) (g : Nat) (p : Word) : Fill :=
  let r := f.st.loadShared f.seen (stkAdr g p) 4
  { cells := f.cells ++ [{ val := BitVec.ofNat 32 (leVal r.1.bytes), poison := r.1.bad.isSome }], seen := r.2, st := r.1.st }

/-! ### Return from exception (R413) -/

/-- A word of a frame. -/
def frameW (f : List Word) (i : Nat) : Word := f.getD i 0

/-- The cached data cells after ERET: the interrupted stack's, with TOP0 to TOP(NTOP − 1) written (R413). -/
def eretCells (kept : List Cell) (f : List Word) : List Cell :=
  let cause := (frameW f 10).toNat
  let n := min 4 (getBits cause 0 3)
  (List.range n).map (fun i => { val := frameW f (6 + i), poison := getBit cause (8 + i) }) ++ kept.drop n

/-- The state after ERET's one step: TSBP moves down, the frame's words are restored, EXRING pops, the firm window
closes, and INMON clears when ND returns to the monitor's depth (R413, R646). GM restores as 0 in RUN (R35), and every
mode change has settled (R289). A stack whose restored pointer lies above
the current one or in another area has its cached cells spilled first. -/
def State.eretRestore (s : State) (g : Nat) (e : Engine) (f : List Word) : State :=
  let b := e.arch.bank
  let dsp := frameW f 2
  let rsp := frameW f 3
  let sameD := spArea dsp == spArea b.dsp && spOff dsp ≤ spOff b.dsp
  let sameR := spArea rsp == spArea b.rsp && spOff rsp ≤ spOff b.rsp
  let s := if sameD then s else s.spillCells g b.dsp b.ds
  let s := if sameR then s else s.spillCells g b.rsp b.rs
  let keptD := if sameD then b.ds.drop ((spOff b.dsp - spOff dsp) / 4) else []
  let keptR := if sameR then b.rs.drop ((spOff b.rsp - spOff rsp) / 4) else []
  let tsbp := e.arch.tsbp
  let left := pswGet tsbp Bits.TSBP_LEFT
  let tsbp := pswPut (pswPut tsbp Bits.TSBP_FRAME (tsbp.toNat / 64 - 1)) Bits.TSBP_LEFT (if left = 7 then 7 else left + 1)
  let exring := e.arch.exring.drop 1
  let ipl := pswGet (frameW f 1) Bits.PSW_IPL
  let psw := bandN (frameW f 1).toNat 0x87030007
  let psw := putBits psw 24 3 (if exring ≠ [] then max ipl 1 else ipl)
  let psw := if s.mode = modeRun then putBits psw 31 1 0 else psw
  let back := e.inMon && exring.length ≤ e.monNd
  let e := if sameD then e else e.count pcSpills b.ds.length
  let e := if sameR then e else e.count pcSpills b.rs.length
  s.setEng g
    { e with
      arch := { e.arch with
        pc := frameW f 0, psw := BitVec.ofNat 32 psw, tsbp := tsbp, exring := exring, settles := [],
        bank := { dsp := dsp, rsp := rsp, dslim := frameW f 4, rslim := frameW f 5,
                  ds := eretCells keptD f, rs := keptR } },
      slot := none, firm := 0, gmEpoch := s.gmEpoch, inMon := e.inMon && !back,
      stepping := e.stepping || (back && s.bit (Adr.DBG_ECTL g) 2) }

/-! ### Retirement -/

/-- Where execution goes after a delay slot of `len` bytes: the branch's destination, or on. -/
def Slot.next (sl : Slot) (e : Engine) (len : Nat) : Word :=
  match sl.dest with
  | some d => d
  | none => e.arch.pc + BitVec.ofNat 32 len

/-- An instruction of `len` bytes completes with the engine at `e`: the program counter moves past it, or, after a
delay slot, to the branch's destination with the branch's change (R287, R289). -/
def State.retire (s : State) (g : Nat) (e : Engine) (len : Nat) : State :=
  let e := ((e.touchLine g len).spillsStop).retireCount (s.eng g).effRing
  let e := { e with arch := { e.arch with settles := settleTick e.arch.settles } }
  match e.slot with
  | none => s.setEng g { e with arch := { e.arch with pc := e.arch.pc + BitVec.ofNat 32 len } }.stepDone
  | some sl =>
    match sl.change with
    | .none => s.setEng g { e with arch := { e.arch with pc := sl.next e len }, slot := none }.stepDone
    | .ring r =>
      s.setEng g { e with
        arch := { e.arch with pc := sl.next e len, psw := pswPut e.arch.psw Bits.PSW_RING r, settles := [] },
        slot := none }.stepDone
    | .eret f => s.eretRestore g e f

/-- A debug request of a trigger, which the engine recognises at the boundary before the instruction (R654). -/
def State.requestDebug (s : State) (g reason : Nat) : State :=
  s.modEng g (fun e => { e with dbgPend := true, dbgReason := reason })

/-- The place of an engine in its program, and whether it stands at an exception: an instruction that waits changes
neither. -/
def Engine.place (e : Engine) : Word × Bool × Bool := (e.arch.pc, e.slot.isSome, e.exc.isSome)

/-- An instruction without a data access that completes at `u`, from `s`, meets the data-type triggers that match it
(R653, R654): DEBUG and the rest let it run; a WATCH raises, and what its FADDR holds with no data address to take is a free
value (log 137). -/
def State.plainWatched (s u : State) (g : Nat) (body : State → State) : State :=
  let e := s.eng g
  if accessOp ((s.fetchByte g e.arch.pc.toNat).getD 0).toNat || (u.eng g).exc.isSome then u
  else
    let p := s.triggers g e.arch.pc.toNat none true
    if p.watch.isSome then
      if e.flights ≠ [] then s
      else
        let r := p.st.free
        r.2.raise g { code := excWatch, faddr := r.1.setWidth 32 }
    else body (if p.dbgReq.isSome then p.st.requestDebug g 2 else p.st)

/-- An instruction runs under fetch-type triggers (R653, R654): WATCH raises, DEBUG squashes it unless the request is held,
and an instruction that waits is met only when it goes. -/
def State.issueWatched (s : State) (g : Nat) (body : State → State) : State :=
  let e := s.eng g
  let f := s.triggers g e.arch.pc.toNat none
  if f.watch.isSome then
    if e.flights ≠ [] then s else f.st.raise g { code := excWatch, faddr := e.arch.pc }
  else if f.dbgReq.isSome ∧ !e.inMon ∧ e.ipl ≤ 6 then
    if e.flights ≠ [] then s else (f.st.requestDebug g 2).modEng g Engine.rollback
  else
    let w := body s
    if (w.eng g).place = e.place then w
    else
      let s := if f.dbgReq.isSome then f.st.requestDebug g 2 else f.st
      s.plainWatched (body s) g body

/-- An instruction whose encoding is legal is dispatched: its micro-program is read (R490), and it runs under the
triggers. A machine check overrides every fault of the instruction (R388). -/
def State.dispatched (s : State) (g : Nat) (body : State → State) : State :=
  match s.dispatch g with
  | .parity a => s.machineCheck g (some a)
  | .broken => s.machineCheck g none
  | .raises c => s.raise g { code := c, faddr := (s.eng g).arch.pc }
  | .runs => s
  | .done => if s.get (Adr.DBG_TCTL (tileOf g)) Bits.DBG_TCTL_EN = 0 then body s else s.issueWatched g body

/-- An instruction of `len` bytes comes to issue on engine `g`. In order: an ERR that has arrived is taken at the
boundary; the fetch checks; its lines, which it waits for; an illegal encoding, or a barred instruction in a delay slot,
which is the branch's fault (R287); and then the instruction itself, by `go`. Where the engine does not issue, the command
finds nothing to do. -/
def State.issueWith (s : State) (g len : Nat) (barred legal : Bool) (go : State → State) : State :=
  let e := s.eng g
  let pc := e.arch.pc.toNat
  if !s.canIssue g then s
  else if e.slot.isNone ∧ e.arrived ≠ [] then s.takeDeferred g
  else
    let s := if e.hold == .none then s else s.modEng g (fun e => { e with hold := .none })
    match s.fetchFault g pc len with
    | some code => s.raise g { code := code, faddr := e.arch.pc }
    | none =>
      if !s.atHand g pc len then s
      else if !legal ∨ (barred ∧ e.slot.isSome) then s.raise g { code := excIllegal, faddr := e.rollback.arch.pc }
      else go s

/-- An instruction that has no delay slot comes to issue. -/
def State.issue (s : State) (g len : Nat) (barred legal : Bool) (body : State → State) : State :=
  s.issueWith g len barred legal (fun s => s.dispatched g body)

/-- A branch-class instruction comes to issue: it waits for the bytes of its delay slot, and raises illegal opcode itself
for a slot that may not stand there, before any other fault of its own (R287, R388). -/
def State.issueBranch (s : State) (g len : Nat) (body : State → State) : State :=
  s.issueWith g len true true (fun s =>
    match s.slotSeen g (((s.eng g).arch.pc.toNat + len) % 2 ^ 32) with
    | .away => s
    | .illegal => s.raise g { code := excIllegal, faddr := (s.eng g).arch.pc }
    | _ => s.dispatched g body)

/-! ### The stacks -/

/-- How many cells an instruction reads and leaves in their place on each stack. -/
structure StkUse where
  dIn : Nat := 0
  dOut : Nat := 0
  rIn : Nat := 0
  rOut : Nat := 0
  /-- data cells that stay where they are: `peek` of them are read, behind `peekAt` that are passed over -/
  peekAt : Nat := 0
  peek : Nat := 0
  /-- the instruction reads what it pops (false for DROP, 2DROP and RDROP, R356), but for the popped data cells from
  `unread` on, which it overwrites -/
  reads : Bool := true
  unread : Nat := 1000
  deriving DecidableEq, Repr

/-- The stack limit check of one stack: the detail's offset (0 overflow, 1 underflow) and the cell's address (R349). -/
def limitFault (sp lim : Word) (cin cout : Nat) : Option (Nat × Word) :=
  if stkDepth sp lim < cin then some (1, cellForm sp (stkDepth sp lim))
  else if cin < cout ∧ limTop lim + 4 < spOff sp + 4 * (cout - cin) then
    some (0, spMove sp ((((max (spOff sp) (limTop lim + 4)) - spOff sp) / 4 : Nat) : Int))
  else none

/-- The data cells that an instruction needs cached. -/
def StkUse.dNeed (u : StkUse) : Nat := u.dIn + (u.peekAt + u.peek)

/-- The data cells that an instruction reads: popped ones, and those that it peeks at. -/
def Bank.dRead (b : Bank) (u : StkUse) : List Cell := b.ds.take u.dIn ++ (b.ds.drop u.peekAt).take u.peek

/-- The stack limit check of an instruction: data stack details 0 and 1, return stack 2 and 3. A cell that is peeked at is
the one that would have been read. -/
def Bank.stackFault (b : Bank) (u : StkUse) : Option Exc :=
  match (if 0 < u.peek ∧ stkDepth b.dsp b.dslim < u.peekAt then some (1, cellForm b.dsp u.peekAt)
      else limitFault b.dsp b.dslim u.dNeed (u.dOut + (u.peekAt + u.peek))) with
  | some (k, a) => some { code := excStack, detail := k, faddr := a }
  | none =>
    match limitFault b.rsp b.rslim u.rIn u.rOut with
    | some (k, a) => some { code := excStack, detail := 2 + k, faddr := a }
    | none => none

/-- Whether the cells an instruction reads are cached, and whether its results leave the headroom (R352, R355). -/
def Bank.room (b : Bank) (u : StkUse) : Bool :=
  u.dNeed ≤ b.ds.length && u.rIn ≤ b.rs.length &&
    (u.dOut ≤ u.dIn || b.ds.length + u.dOut ≤ maxCachedD + u.dIn) &&
    (u.rOut ≤ u.rIn || b.rs.length + u.rOut ≤ maxCachedR + u.rIn)

/-- Whether the cells an instruction reads are ready (R320, R321). -/
def Bank.ready (b : Bank) (u : StkUse) : Bool :=
  (b.dRead u).all (fun c => c.wait.isNone) && (b.rs.take u.rIn).all (fun c => c.wait.isNone)

/-- The address of the first poisoned cell among those an instruction reads (R356). -/
def poisonAt (sp : Word) : List Cell → Option Word
  | [] => none
  | c :: r => if c.poison then some (cellForm sp 0) else poisonAt (spMove sp (-1)) r

/-- The values of cells. -/
def vals (l : List Cell) : List Word := l.map (fun c => c.val)

/-- New cells, ready or waiting for an operation. -/
def newCells (w : Option Nat) (l : List Word) : List Cell := l.map (fun v => { val := v, wait := w })

/-- The bank after an instruction: the read cells go, the new ones come, the pointers move by the net change. -/
def Bank.apply (b : Bank) (u : StkUse) (w : Option Nat) (d r : List Word) : Bank :=
  { b with
    dsp := spMove b.dsp ((d.length : Int) - u.dIn),
    rsp := spMove b.rsp ((r.length : Int) - u.rIn),
    ds := newCells w d ++ b.ds.drop u.dIn,
    rs := newCells none r ++ b.rs.drop u.rIn }

/-- What the stack rules make of an instruction: a fault, a wait, or its operands, top first. -/
inductive StkGo where
  | fault (x : Exc)
  | hold
  | go (d r : List Word)

/-- The stack rules in their order: limits, cached cells and headroom, readiness, poison. -/
def Bank.check (b : Bank) (u : StkUse) : StkGo :=
  match b.stackFault u with
  | some x => .fault x
  | none =>
    if !b.room u || !b.ready u then .hold
    else
      let p := if u.reads then
          ((poisonAt b.dsp ((b.ds.take u.dIn).take u.unread)).or
            (poisonAt (spMove b.dsp (-(u.peekAt : Int))) ((b.ds.drop u.peekAt).take u.peek))).or
            (poisonAt b.rsp (b.rs.take u.rIn))
        else none
      match p with
      | some a => .fault { code := excBus, faddr := a }
      | none => .go (vals (b.dRead u)) (vals (b.rs.take u.rIn))

/-- An instruction waits in DC: the fill engine learns what it needs, and the wait is counted for the operation it
waits for (R344, R355). -/
def State.waitFor (s : State) (g : Nat) (u : StkUse) : State :=
  s.modEng g (fun e =>
    let b := e.arch.bank
    let e := { e with needD := max e.needD u.dNeed, needR := max e.needR u.rIn }
    let waits := (b.dRead u ++ b.rs.take u.rIn).filterMap (fun c => c.wait)
    let md := e.flights.any (fun f => waits.contains f.tag && (f.kind == .mul || f.kind == .div))
    if b.ready u then e else if md then e.countCycle pcMdWait else e.countCycle pcLoadWait)

/-- The need of the fill engine is met once an instruction has gone. -/
def Engine.gone (e : Engine) : Engine := { e with needD := 0, needR := 0 }

/-- A class A instruction of the data chapters: it reads cells, computes, writes cells and flags, and retires. -/
def State.stkOp (s : State) (g len : Nat) (u : StkUse) (f : Bool → List Word → List Word → Fx) : State :=
  let e := s.eng g
  match e.arch.bank.check u with
  | .fault x => s.raise g x
  | .hold => s.waitFor g u
  | .go d r =>
    let fx := f e.cflag d r
    s.retire g
      { e.gone with arch := { e.arch with bank := e.arch.bank.apply u none fx.d fx.r, psw := pswFlags e.arch.psw fx } }
      len

/-- Whether the multiply-divide unit is at work (R265). -/
def Engine.mdBusy (e : Engine) : Bool := e.flights.any (fun f => f.kind == .mul || f.kind == .div)

/-- A class M instruction (R265, R321): its flags are written, and its result cells wait until the multiply-divide unit
completes. -/
def State.mdOp (s : State) (g len : Nat) (kind : FlightKind) (u : StkUse) (f : List Word → Fx) : State :=
  let e := s.eng g
  match e.arch.bank.check u with
  | .fault x => s.raise g x
  | .hold => s.waitFor g u
  | .go d _ =>
    if e.mdBusy then s.setEng g (e.countCycle pcMdWait)
    else if ctSize g ≤ e.flights.length then s.setEng g (e.countCycle pcCtFull)
    else
      let fx := f d
      let tag := e.nextTag
      s.retire g
        { e.gone with
          arch := { e.arch with bank := e.arch.bank.apply u (some tag) fx.d [], psw := pswFlags e.arch.psw fx },
          flights := e.flights ++ [{ tag := tag, kind := kind, before := e.arch, slot := e.slot }],
          nextTag := tag + 1 }
        len

end Sys2Proof.Machine
end

