-- ==== Sys2Proof/Machine/Data.lean ====
section
/-!
DEFINITION. The data instructions of Onalen engines I: literals, stack, logical and shift, integer, carry and double cell,
multiply and divide, and fixed point (R267 to R278). Each is one use of the shared stack operation.
-/

namespace Sys2Proof.Machine

/-- The outcome of a command. -/
abbrev Out := Host.Outcome State Fault Refusal

/-- Functions of the cells an instruction reads, by their number; the operands stand in the order of the Stack column,
the last one on top. -/
def on0 (f : Bool → Fx) : Bool → List Word → List Word → Fx
  | c, _, _ => f c
def on1 (f : Bool → Word → Fx) : Bool → List Word → List Word → Fx
  | c, [a], _ => f c a
  | _, _, _ => {}
def on2 (f : Bool → Word → Word → Fx) : Bool → List Word → List Word → Fx
  | c, [b, a], _ => f c a b
  | _, _, _ => {}
def on3 (f : Bool → Word → Word → Word → Fx) : Bool → List Word → List Word → Fx
  | x, [c, b, a], _ => f x a b c
  | _, _, _ => {}
def on4 (f : Bool → Word → Word → Word → Word → Fx) : Bool → List Word → List Word → Fx
  | x, [d, c, b, a], _ => f x a b c d
  | _, _, _ => {}

/-- A data instruction of class A: `len` bytes, whether its operand byte is legal, the cells it reads and leaves, and
what it computes. -/
def dataOp (g : Eng) (s : State) (len : Nat) (legal : Bool) (u : StkUse) (f : Bool → List Word → List Word → Fx) : Out :=
  .next (s.issue g.val len false legal (fun s => s.stkOp g.val len u f))

/-- A class M instruction of one opcode byte. -/
def mulDivOp (g : Eng) (s : State) (kind : FlightKind) (u : StkUse) (f : Bool → List Word → List Word → Fx) : Out :=
  .next (s.issue g.val 1 false true (fun s => s.mdOp g.val 1 kind u (fun d => f false d [])))

/-! ### Literals (R268) -/

/-- SLIT: the opcode's low five bits, sign-extended. -/
def execSlit (g : Eng) (n : BitVec 5) (s : State) : Out :=
  dataOp g s 1 true { dIn := 0, dOut := 1 } (on0 fun _ => fxCells [n.signExtend 32])

/-- LIT8. -/
def execLit8 (g : Eng) (b : BitVec 8) (s : State) : Out :=
  dataOp g s 2 true { dIn := 0, dOut := 1 } (on0 fun _ => fxCells [b.signExtend 32])

/-- LIT8U. -/
def execLit8u (g : Eng) (b : BitVec 8) (s : State) : Out :=
  dataOp g s 2 true { dIn := 0, dOut := 1 } (on0 fun _ => fxCells [b.setWidth 32])

/-- LIT16. -/
def execLit16 (g : Eng) (h : BitVec 16) (s : State) : Out :=
  dataOp g s 3 true { dIn := 0, dOut := 1 } (on0 fun _ => fxCells [h.signExtend 32])

/-- LIT16U. -/
def execLit16u (g : Eng) (h : BitVec 16) (s : State) : Out :=
  dataOp g s 3 true { dIn := 0, dOut := 1 } (on0 fun _ => fxCells [h.setWidth 32])

/-- LIT32. -/
def execLit32 (g : Eng) (w : BitVec 32) (s : State) : Out :=
  dataOp g s 5 true { dIn := 0, dOut := 1 } (on0 fun _ => fxCells [w])

/-! ### Stack (R267) -/

/-- DUP: a → a a. -/
def execDup (g : Eng) (s : State) : Out :=
  dataOp g s 1 true { dIn := 1, dOut := 2 } (on1 fun _ a => fxCells [a, a])

/-- DROP: a →. A poisoned cell raises nothing (R356). -/
def execDrop (g : Eng) (s : State) : Out :=
  dataOp g s 1 true { dIn := 1, dOut := 0, reads := false } (fun _ _ _ => {})

/-- SWAP: a b → b a. -/
def execSwap (g : Eng) (s : State) : Out :=
  dataOp g s 1 true { dIn := 2, dOut := 2 } (on2 fun _ a b => fxCells [a, b])

/-- OVER: a b → a b a. -/
def execOver (g : Eng) (s : State) : Out :=
  dataOp g s 1 true { peekAt := 1, peek := 1, dOut := 1 } (on1 fun _ a => fxCells [a])

/-- ROT: a b c → b c a. -/
def execRot (g : Eng) (s : State) : Out :=
  dataOp g s 1 true { dIn := 3, dOut := 3 } (on3 fun _ a b c => fxCells [a, c, b])

/-- NIP: a b → b. -/
def execNip (g : Eng) (s : State) : Out :=
  dataOp g s 1 true { dIn := 2, dOut := 1, unread := 1 } (on2 fun _ _ b => fxCells [b])

/-- TUCK: a b → b a b. -/
def execTuck (g : Eng) (s : State) : Out :=
  dataOp g s 1 true { dIn := 2, dOut := 3 } (on2 fun _ a b => fxCells [b, a, b])

/-- PICK k: a copy of the cell k below the top, k 0 to 15. -/
def execPick (g : Eng) (k : BitVec 8) (s : State) : Out :=
  dataOp g s 2 (decide (k.toNat < 16)) { peekAt := k.toNat, peek := 1, dOut := 1 }
    (on1 fun _ a => fxCells [a])

/-- 2DUP: a b → a b a b. -/
def execTwoDup (g : Eng) (s : State) : Out :=
  dataOp g s 1 true { dIn := 2, dOut := 4 } (on2 fun _ a b => fxCells [b, a, b, a])

/-- 2DROP: a b →. A poisoned cell raises nothing (R356). -/
def execTwoDrop (g : Eng) (s : State) : Out :=
  dataOp g s 1 true { dIn := 2, dOut := 0, reads := false } (fun _ _ _ => {})

/-- 2SWAP: a b c d → c d a b. -/
def execTwoSwap (g : Eng) (s : State) : Out :=
  dataOp g s 1 true { dIn := 4, dOut := 4 } (on4 fun _ a b c d => fxCells [b, a, d, c])

/-- 2OVER: a b c d → a b c d a b. -/
def execTwoOver (g : Eng) (s : State) : Out :=
  dataOp g s 1 true { peekAt := 2, peek := 2, dOut := 2 } (on2 fun _ a b => fxCells [b, a])

/-- >R: a moves to the return stack. -/
def execToR (g : Eng) (s : State) : Out :=
  dataOp g s 1 true { dIn := 1, rOut := 1 } (fun _ d _ => { r := d })

/-- R>: a moves from the return stack. -/
def execRFrom (g : Eng) (s : State) : Out :=
  dataOp g s 1 true { dOut := 1, rIn := 1 } (fun _ _ r => { d := r })

/-- R@: a copy of the top return cell. -/
def execRFetch (g : Eng) (s : State) : Out :=
  dataOp g s 1 true { dOut := 1, rIn := 1, rOut := 1 } (fun _ _ r => { d := r, r := r })

/-- RDROP: the top return cell goes. -/
def execRdrop (g : Eng) (s : State) : Out :=
  dataOp g s 1 true { rIn := 1, reads := false } (fun _ _ _ => {})

/-! ### Logical and shift (R269, R270) -/

/-- AND. -/
def execAnd (g : Eng) (s : State) : Out :=
  dataOp g s 1 true { dIn := 2, dOut := 1 } (on2 fun _ a b => fxCells [a &&& b])

/-- OR. -/
def execOr (g : Eng) (s : State) : Out :=
  dataOp g s 1 true { dIn := 2, dOut := 1 } (on2 fun _ a b => fxCells [a ||| b])

/-- XOR. -/
def execXor (g : Eng) (s : State) : Out :=
  dataOp g s 1 true { dIn := 2, dOut := 1 } (on2 fun _ a b => fxCells [a ^^^ b])

/-- NOT. -/
def execNot (g : Eng) (s : State) : Out :=
  dataOp g s 1 true { dIn := 1, dOut := 1 } (on1 fun _ a => fxCells [~~~a])

/-- SHL: count from n[5:0]; C (R270). -/
def execShl (g : Eng) (s : State) : Out :=
  dataOp g s 1 true { dIn := 2, dOut := 1 } (on2 fun _ a b => fxC (shlW a (count6 b)))

/-- SHR. -/
def execShr (g : Eng) (s : State) : Out :=
  dataOp g s 1 true { dIn := 2, dOut := 1 } (on2 fun _ a b => fxC (shrW a (count6 b)))

/-- SAR. -/
def execSar (g : Eng) (s : State) : Out :=
  dataOp g s 1 true { dIn := 2, dOut := 1 } (on2 fun _ a b => fxC (sarW a (count6 b)))

/-- ROL by n[4:0]. -/
def execRol (g : Eng) (s : State) : Out :=
  dataOp g s 1 true { dIn := 2, dOut := 1 } (on2 fun _ a b => fxCells [a.rotateLeft (b.toNat % 32)])

/-- ROR by n[4:0]. -/
def execRor (g : Eng) (s : State) : Out :=
  dataOp g s 1 true { dIn := 2, dOut := 1 } (on2 fun _ a b => fxCells [a.rotateRight (b.toNat % 32)])

/-- SHLI k: k 0 to 31 (R270). -/
def execShli (g : Eng) (k : BitVec 8) (s : State) : Out :=
  dataOp g s 2 (decide (k.toNat < 32)) { dIn := 1, dOut := 1 } (on1 fun _ a => fxC (shlW a k.toNat))

/-- SHRI k. -/
def execShri (g : Eng) (k : BitVec 8) (s : State) : Out :=
  dataOp g s 2 (decide (k.toNat < 32)) { dIn := 1, dOut := 1 } (on1 fun _ a => fxC (shrW a k.toNat))

/-- SARI k. -/
def execSari (g : Eng) (k : BitVec 8) (s : State) : Out :=
  dataOp g s 2 (decide (k.toNat < 32)) { dIn := 1, dOut := 1 } (on1 fun _ a => fxC (sarW a k.toNat))

/-- CLZ: leading zero bits. -/
def execClz (g : Eng) (s : State) : Out :=
  dataOp g s 1 true { dIn := 1, dOut := 1 } (on1 fun _ a => fxCells [BitVec.ofNat 32 (clzWord a)])

/-- POPC: set bits. -/
def execPopc (g : Eng) (s : State) : Out :=
  dataOp g s 1 true { dIn := 1, dOut := 1 } (on1 fun _ a => fxCells [BitVec.ofNat 32 (popcWord a)])

/-- BSWAP. -/
def execBswap (g : Eng) (s : State) : Out :=
  dataOp g s 1 true { dIn := 1, dOut := 1 } (on1 fun _ a => fxCells [bswapWord a])

/-- BREV. -/
def execBrev (g : Eng) (s : State) : Out :=
  dataOp g s 1 true { dIn := 1, dOut := 1 } (on1 fun _ a => fxCells [brevWord a])

/-! ### Integer (R271) -/

/-- ADD: C V. -/
def execAdd (g : Eng) (s : State) : Out :=
  dataOp g s 1 true { dIn := 2, dOut := 1 } (on2 fun _ a b => fxCV (addW a b false))

/-- SUB: C V. -/
def execSub (g : Eng) (s : State) : Out :=
  dataOp g s 1 true { dIn := 2, dOut := 1 } (on2 fun _ a b => fxCV (subW a b false))

/-- NEG: 0 − a; C V. -/
def execNeg (g : Eng) (s : State) : Out :=
  dataOp g s 1 true { dIn := 1, dOut := 1 } (on1 fun _ a => fxCV (subW 0 a false))

/-- ABS: V. -/
def execAbs (g : Eng) (s : State) : Out :=
  dataOp g s 1 true { dIn := 1, dOut := 1 } (on1 fun _ a => fxAbs a)

/-- INC: C V. -/
def execInc (g : Eng) (s : State) : Out :=
  dataOp g s 1 true { dIn := 1, dOut := 1 } (on1 fun _ a => fxCV (addW a 1 false))

/-- DEC: C V. -/
def execDec (g : Eng) (s : State) : Out :=
  dataOp g s 1 true { dIn := 1, dOut := 1 } (on1 fun _ a => fxCV (subW a 1 false))

/-- ADDI s: a + s, s sign-extended; C V. -/
def execAddi (g : Eng) (b : BitVec 8) (s : State) : Out :=
  dataOp g s 2 true { dIn := 1, dOut := 1 } (on1 fun _ a => fxCV (addW a (b.signExtend 32) false))

/-- MIN, signed. -/
def execMin (g : Eng) (s : State) : Out :=
  dataOp g s 1 true { dIn := 2, dOut := 1 } (on2 fun _ a b => fxCells [if a.slt b then a else b])

/-- MAX, signed. -/
def execMax (g : Eng) (s : State) : Out :=
  dataOp g s 1 true { dIn := 2, dOut := 1 } (on2 fun _ a b => fxCells [if a.slt b then b else a])

/-- UMIN. -/
def execUmin (g : Eng) (s : State) : Out :=
  dataOp g s 1 true { dIn := 2, dOut := 1 } (on2 fun _ a b => fxCells [if a.ult b then a else b])

/-- UMAX. -/
def execUmax (g : Eng) (s : State) : Out :=
  dataOp g s 1 true { dIn := 2, dOut := 1 } (on2 fun _ a b => fxCells [if a.ult b then b else a])

/-- EQ: a flag cell. -/
def execEq (g : Eng) (s : State) : Out :=
  dataOp g s 1 true { dIn := 2, dOut := 1 } (on2 fun _ a b => fxCells [flagCell (a == b)])

/-- LT, signed. -/
def execLt (g : Eng) (s : State) : Out :=
  dataOp g s 1 true { dIn := 2, dOut := 1 } (on2 fun _ a b => fxCells [flagCell (a.slt b)])

/-- ULT. -/
def execUlt (g : Eng) (s : State) : Out :=
  dataOp g s 1 true { dIn := 2, dOut := 1 } (on2 fun _ a b => fxCells [flagCell (a.ult b)])

/-- ZEQ. -/
def execZeq (g : Eng) (s : State) : Out :=
  dataOp g s 1 true { dIn := 1, dOut := 1 } (on1 fun _ a => fxCells [flagCell (a == 0)])

/-- SEXT k: a[k−1:0] sign-extended, k 8 or 16. -/
def execSext (g : Eng) (k : BitVec 8) (s : State) : Out :=
  dataOp g s 2 (k == 8 || k == 16) { dIn := 1, dOut := 1 } (on1 fun _ a => fxCells [sextLow k.toNat a])

/-! ### Carry and double cell (R272) -/

/-- ADC: a + b + C; C V. -/
def execAdc (g : Eng) (s : State) : Out :=
  dataOp g s 1 true { dIn := 2, dOut := 1 } (on2 fun c a b => fxCV (addW a b c))

/-- SBB: a − b − C; C V. -/
def execSbb (g : Eng) (s : State) : Out :=
  dataOp g s 1 true { dIn := 2, dOut := 1 } (on2 fun c a b => fxCV (subW a b c))

/-- DADD: d1 + d2; C V. -/
def execDadd (g : Eng) (s : State) : Out :=
  dataOp g s 1 true { dIn := 4, dOut := 2 } (on4 fun _ lo1 hi1 lo2 hi2 => fxDCV (addW (dcell lo1 hi1) (dcell lo2 hi2) false))

/-- DSUB: d1 − d2; C V. -/
def execDsub (g : Eng) (s : State) : Out :=
  dataOp g s 1 true { dIn := 4, dOut := 2 } (on4 fun _ lo1 hi1 lo2 hi2 => fxDCV (subW (dcell lo1 hi1) (dcell lo2 hi2) false))

/-- DNEG: 0 − d; C V. -/
def execDneg (g : Eng) (s : State) : Out :=
  dataOp g s 1 true { dIn := 2, dOut := 2 } (on2 fun _ lo hi => fxDCV (subW 0 (dcell lo hi) false))

/-- DSHL: count from n[5:0]; C. -/
def execDshl (g : Eng) (s : State) : Out :=
  dataOp g s 1 true { dIn := 3, dOut := 2 } (on3 fun _ lo hi n => fxDC (shlW (dcell lo hi) (count6 n)))

/-- DSHR. -/
def execDshr (g : Eng) (s : State) : Out :=
  dataOp g s 1 true { dIn := 3, dOut := 2 } (on3 fun _ lo hi n => fxDC (shrW (dcell lo hi) (count6 n)))

/-- DSAR. -/
def execDsar (g : Eng) (s : State) : Out :=
  dataOp g s 1 true { dIn := 3, dOut := 2 } (on3 fun _ lo hi n => fxDC (sarW (dcell lo hi) (count6 n)))

/-- S>D: a sign-extended to a double cell. -/
def execSToD (g : Eng) (s : State) : Out :=
  dataOp g s 1 true { dIn := 1, dOut := 2 } (on1 fun _ a => fxCells [hiCell (a.signExtend 64), a])

/-- D>S: the S32 value, clamped; SAT. -/
def execDToS (g : Eng) (s : State) : Out :=
  dataOp g s 1 true { dIn := 2, dOut := 1 } (on2 fun _ lo hi => fxDToS (dcell lo hi))

/-- CLC: C := 0. -/
def execClc (g : Eng) (s : State) : Out :=
  dataOp g s 1 true { dIn := 0, dOut := 0 } (fun _ _ _ => { c := some false })

/-- SETC: C := 1. -/
def execSetc (g : Eng) (s : State) : Out :=
  dataOp g s 1 true { dIn := 0, dOut := 0 } (fun _ _ _ => { c := some true })

/-- GETC: C as 0 or 1. -/
def execGetc (g : Eng) (s : State) : Out :=
  dataOp g s 1 true { dIn := 0, dOut := 1 } (on0 fun c => fxCells [bword c])

/-- DLT, signed. -/
def execDlt (g : Eng) (s : State) : Out :=
  dataOp g s 1 true { dIn := 4, dOut := 1 } (on4 fun _ lo1 hi1 lo2 hi2 => fxCells [flagCell ((dcell lo1 hi1).slt (dcell lo2 hi2))])

/-- DULT. -/
def execDult (g : Eng) (s : State) : Out :=
  dataOp g s 1 true { dIn := 4, dOut := 1 } (on4 fun _ lo1 hi1 lo2 hi2 => fxCells [flagCell ((dcell lo1 hi1).ult (dcell lo2 hi2))])

/-! ### Multiply and divide (R273) -/

/-- MUL: low cell; V. -/
def execMul (g : Eng) (s : State) : Out :=
  mulDivOp g s .mul { dIn := 2, dOut := 1 } (on2 fun _ a b => fxMul a b)

/-- UMUL: low cell; C. -/
def execUmul (g : Eng) (s : State) : Out :=
  mulDivOp g s .mul { dIn := 2, dOut := 1 } (on2 fun _ a b => fxUmul a b)

/-- MULW: signed product. -/
def execMulw (g : Eng) (s : State) : Out :=
  mulDivOp g s .mul { dIn := 2, dOut := 2 } (on2 fun _ a b => fxMulw a b)

/-- UMULW: unsigned product. -/
def execUmulw (g : Eng) (s : State) : Out :=
  mulDivOp g s .mul { dIn := 2, dOut := 2 } (on2 fun _ a b => fxUmulw a b)

/-- DIV: q; V SAT (R275). -/
def execDiv (g : Eng) (s : State) : Out :=
  mulDivOp g s .div { dIn := 2, dOut := 1 } (on2 fun _ a b => fxQ (divSigned a.toInt b.toInt a))

/-- UDIV. -/
def execUdiv (g : Eng) (s : State) : Out :=
  mulDivOp g s .div { dIn := 2, dOut := 1 } (on2 fun _ a b => fxQ (divUnsigned a.toNat b.toNat a))

/-- MOD: r; V. -/
def execMod (g : Eng) (s : State) : Out :=
  mulDivOp g s .div { dIn := 2, dOut := 1 } (on2 fun _ a b => fxR (divSigned a.toInt b.toInt a))

/-- UMOD. -/
def execUmod (g : Eng) (s : State) : Out :=
  mulDivOp g s .div { dIn := 2, dOut := 1 } (on2 fun _ a b => fxR (divUnsigned a.toNat b.toNat a))

/-- DIVMOD: r q. -/
def execDivmod (g : Eng) (s : State) : Out :=
  mulDivOp g s .div { dIn := 2, dOut := 2 } (on2 fun _ a b => fxRQ (divSigned a.toInt b.toInt a))

/-- UDIVMOD. -/
def execUdivmod (g : Eng) (s : State) : Out :=
  mulDivOp g s .div { dIn := 2, dOut := 2 } (on2 fun _ a b => fxRQ (divUnsigned a.toNat b.toNat a))

/-- UDIVW: 64 by 32, unsigned. -/
def execUdivw (g : Eng) (s : State) : Out :=
  mulDivOp g s .div { dIn := 3, dOut := 2 } (on3 fun _ lo hi u => fxRQ (divUnsigned (dcell lo hi).toNat u.toNat lo))

/-- DIVW: 64 by 32, signed. -/
def execDivw (g : Eng) (s : State) : Out :=
  mulDivOp g s .div { dIn := 3, dOut := 2 } (on3 fun _ lo hi b => fxRQ (divSigned (dcell lo hi).toInt b.toInt lo))

/-! ### Fixed point (R277) -/

/-- QADD: Q15, clamped; SAT. -/
def execQadd (g : Eng) (s : State) : Out :=
  dataOp g s 1 true { dIn := 2, dOut := 1 } (on2 fun _ a b => fxQ15 (s16 a + s16 b))

/-- QSUB. -/
def execQsub (g : Eng) (s : State) : Out :=
  dataOp g s 1 true { dIn := 2, dOut := 1 } (on2 fun _ a b => fxQ15 (s16 a - s16 b))

/-- QMUL: Q15, toward −∞; SAT V; class M. -/
def execQmul (g : Eng) (s : State) : Out :=
  mulDivOp g s .mul { dIn := 2, dOut := 1 } (on2 fun _ a b => fxQmul a b)

/-- QMULR: half upward. -/
def execQmulr (g : Eng) (s : State) : Out :=
  mulDivOp g s .mul { dIn := 2, dOut := 1 } (on2 fun _ a b => fxQmulr a b)

/-- QADDL: Q31, clamped; SAT. -/
def execQaddl (g : Eng) (s : State) : Out :=
  dataOp g s 1 true { dIn := 2, dOut := 1 } (on2 fun _ a b => fxQ31 (a.toInt + b.toInt))

/-- QSUBL. -/
def execQsubl (g : Eng) (s : State) : Out :=
  dataOp g s 1 true { dIn := 2, dOut := 1 } (on2 fun _ a b => fxQ31 (a.toInt - b.toInt))

/-- QMULL: Q31, toward −∞; SAT V; class M. -/
def execQmull (g : Eng) (s : State) : Out :=
  mulDivOp g s .mul { dIn := 2, dOut := 1 } (on2 fun _ a b => fxQmull a b)

/-- QMULLR: half upward. -/
def execQmullr (g : Eng) (s : State) : Out :=
  mulDivOp g s .mul { dIn := 2, dOut := 1 } (on2 fun _ a b => fxQmullr a b)

/-- QNEG: Q15. -/
def execQneg (g : Eng) (s : State) : Out :=
  dataOp g s 1 true { dIn := 1, dOut := 1 } (on1 fun _ a => fxQ15 (-s16 a))

/-- QABS: Q15. -/
def execQabs (g : Eng) (s : State) : Out :=
  dataOp g s 1 true { dIn := 1, dOut := 1 } (on1 fun _ a => fxQ15 (s16 a).natAbs)

/-- QNEGL: Q31. -/
def execQnegl (g : Eng) (s : State) : Out :=
  dataOp g s 1 true { dIn := 1, dOut := 1 } (on1 fun _ a => fxQ31 (-a.toInt))

/-- QABSL: Q31. -/
def execQabsl (g : Eng) (s : State) : Out :=
  dataOp g s 1 true { dIn := 1, dOut := 1 } (on1 fun _ a => fxQ31 a.toInt.natAbs)

/-- SATH: S32 clamped to 16 bits. -/
def execSath (g : Eng) (s : State) : Out :=
  dataOp g s 1 true { dIn := 1, dOut := 1 } (on1 fun _ a => fxQ15 a.toInt)

/-- QSHL: a × 2^n[4:0], clamped; SAT. -/
def execQshl (g : Eng) (s : State) : Out :=
  dataOp g s 1 true { dIn := 2, dOut := 1 } (on2 fun _ a b => fxQshl a b)

/-- QRSHR: a / 2^n[4:0], half upward; V. -/
def execQrshr (g : Eng) (s : State) : Out :=
  dataOp g s 1 true { dIn := 2, dOut := 1 } (on2 fun _ a b => fxQrshr a b)


end Sys2Proof.Machine
end

