-- ==== Sys2Proof/Machine/Extended.lean ====
section
/-!
DEFINITION. Extended state and its lazy swap (R255, R257, R375 to R378), the accumulator instructions (R279), SETVL and
GETVL (R134, R135).
-/

namespace Sys2Proof.Machine

/-- The twelve cells in their order in the save area (R255). -/
def extCells (x : Ext) : List Word :=
  [BitVec.ofNat 32 x.vl, loCell x.acc, hiCell x.acc, x.tkt0, x.tkt1, x.wsum, 0, 0, 0, 0, 0, 0]

/-- The extended state that twelve cells hold; VL keeps its 11 bits. -/
def extOfCells (l : List Word) : Ext :=
  { vl := (l.getD 0 0).toNat % 2048, acc := dcell (l.getD 1 0) (l.getD 2 0), tkt0 := l.getD 3 0, tkt1 := l.getD 4 0,
    wsum := l.getD 5 0 }

/-- The bytes of cells. -/
def cellBytes (l : List Word) : List Byte := l.flatMap (fun w => leBytes 4 w.toNat)

/-- The cells that bytes spell. -/
def cellsOf : (n : Nat) → List Byte → List Word
  | 0, _ => []
  | n + 1, l => BitVec.ofNat 32 (leVal (l.take 4)) :: cellsOf n (l.drop 4)

/-- The save area of a context as a global address, when its 48 bytes lie wholly in the tile's scratchpads, the tile's
memory or library memory and its memory answers (R378). -/
def State.saveArea (s : State) (g c : Nat) : Option Nat :=
  let a := (s.reg (Adr.CAL_CTX_XSAVE (tileOf g) c)).toNat / 16 * 16
  match engPlace g a, engPlace g (a + 47) with
  | .own x, .own y | .tile x, .tile y | .fabric x, .fabric y =>
    if y = x + 47 ∧ (inLibrary x ∨ memTile x = some (tileOf g)) ∧ !s.memErrs x 48 then some x else none
  | _, _ => none

/-- The fault of a lazy swap (R378). -/
def lazyFault (detail a : Nat) : Exc := { code := excLazy, detail := detail, faddr := BitVec.ofNat 32 a }

/-- The engine's cells are written to their owner's save area, and the owner's XV is set (R376 step 1). -/
def State.saveExt (s : State) (g own x : Nat) : State :=
  (s.store false x (cellBytes (extCells (s.eng g).arch.ext))).setBit (Adr.CAL_CTX_XSAVE (tileOf g) own) 0

/-- The lazy swap that an instruction touching extended state performs first (R376): nothing when the running context
owns it. -/
def State.lazySwap (s : State) (g : Nat) : Option Exc × State :=
  let t := tileOf g
  let ce := Adr.CAL_ENG t (engOf g)
  let c := s.ctxOf g
  let own := s.get ce Bits.CAL_ENG_XOWN
  let held := s.get ce Bits.CAL_ENG_XOWNV == 1
  if held && own == c then (none, s)
  else
    let xadr (c : Nat) : Nat := (s.reg (Adr.CAL_CTX_XSAVE t c)).toNat / 16 * 16
    match (if held then (s.saveArea g own).filter (fun x => !s.writeFails x 48) else some 0) with
    | none => (some (lazyFault 0 (xadr own)), s)
    | some x =>
      let s := if held then s.saveExt g own x else s
      let take (s : State) (l : List Word) : State :=
        ((s.modEng g (fun e => { e with arch := { e.arch with ext := extOfCells l } })).put ce Bits.CAL_ENG_XOWN c).put
          ce Bits.CAL_ENG_XOWNV 1
      if s.bit (Adr.CAL_CTX_XSAVE t c) 0 then
        match s.saveArea g c with
        | none => (some (lazyFault 1 (xadr c)), s)
        | some y =>
          let r := s.load y 48
          match r.bad with
          | some b => (some (lazyFault 1 (xadr c + (b - y))), r.st)
          | none => (none, take r.st (cellsOf 12 r.bytes))
      else (none, take s [])

/-- An instruction that touches extended state: the stack limits, the lazy swap, and then the instruction (R388). -/
def State.withExt (s : State) (g : Nat) (u : StkUse) (body : State → State) : State :=
  match (s.eng g).arch.bank.stackFault u with
  | some x => s.raise g x
  | none =>
    let ce := Adr.CAL_ENG (tileOf g) (engOf g)
    let mine := s.get ce Bits.CAL_ENG_XOWNV == 1 && s.get ce Bits.CAL_ENG_XOWN == s.ctxOf g
    if mine then body s
    else if (s.eng g).flights ≠ [] then s
    else match s.lazySwap g with
      | (some x, s') => s'.raise g x
      | (none, s') => body s'

/-- What an accumulator instruction computes from ACC and its operands: the new ACC and the effect on cells and flags. -/
structure AccFx where
  acc : DWord
  fx : Fx := {}

/-- An accumulator instruction: class M, reading the ACC that the earlier one leaves (R279). -/
def State.accOp (s : State) (g len : Nat) (u : StkUse) (f : DWord → List Word → AccFx) : State :=
  s.withExt g u (fun s =>
    let e := s.eng g
    match e.arch.bank.check u with
    | .fault x => s.raise g x
    | .hold => s.waitFor g u
    | .go d _ =>
      if e.mdBusy then s.setEng g (e.countCycle pcMdWait)
      else if ctSize g ≤ e.flights.length then s.setEng g (e.countCycle pcCtFull)
      else
        let r := f e.arch.ext.acc d
        let tag := e.nextTag
        s.retire g
          { e.gone with
            arch := { e.arch with
              bank := e.arch.bank.apply u (some tag) r.fx.d [], psw := pswFlags e.arch.psw r.fx,
              ext := { e.arch.ext with acc := r.acc } },
            flights := e.flights ++ [{ tag := tag, kind := .mul, before := e.arch, slot := e.slot }],
            nextTag := tag + 1 }
          len)

/-- An accumulator instruction as a command. -/
def accCmd (g : Eng) (s : State) (len : Nat) (legal : Bool) (u : StkUse) (f : DWord → List Word → AccFx) : Out :=
  .next (s.issue g.val len false legal (fun s => s.accOp g.val len u f))

/-- ACC with a signed product added. -/
def accAdd (acc : DWord) (p : Int) : AccFx :=
  let r := accPlus acc p
  { acc := r.1, fx := { sat := r.2 } }

/-- A two-operand accumulator function. -/
def acc2 (f : DWord → Word → Word → AccFx) : DWord → List Word → AccFx
  | acc, [b, a] => f acc a b
  | acc, _ => { acc := acc }

/-- ACLR: ACC := 0. -/
def execAclr (g : Eng) (s : State) : Out := accCmd g s 1 true {} (fun _ _ => { acc := 0 })

/-- MAC: ACC + a × b, signed, clamped to S64; SAT. -/
def execMac (g : Eng) (s : State) : Out :=
  accCmd g s 1 true { dIn := 2 } (acc2 fun acc a b => accAdd acc (a.toInt * b.toInt))

/-- MSU: ACC − a × b. -/
def execMsu (g : Eng) (s : State) : Out :=
  accCmd g s 1 true { dIn := 2 } (acc2 fun acc a b => accAdd acc (-(a.toInt * b.toInt)))

/-- QMAC: Q15 operands, Q30 product. -/
def execQmac (g : Eng) (s : State) : Out :=
  accCmd g s 1 true { dIn := 2 } (acc2 fun acc a b => accAdd acc (s16 a * s16 b))

/-- UMAC: unsigned, clamped to 0xFFFF_FFFF_FFFF_FFFF. -/
def execUmac (g : Eng) (s : State) : Out :=
  accCmd g s 1 true { dIn := 2 } (acc2 fun acc a b =>
    let r := accPlusU acc (a.toNat * b.toNat)
    { acc := r.1, fx := { sat := r.2 } })

/-- ACCGET: pushes ACC as lo hi. -/
def execAccget (g : Eng) (s : State) : Out :=
  accCmd g s 1 true { dOut := 2 } (fun acc _ => { acc := acc, fx := { d := [hiCell acc, loCell acc] } })

/-- ACCSET: ACC := hi × 2^32 + lo. -/
def execAccset (g : Eng) (s : State) : Out :=
  accCmd g s 1 true { dIn := 2 } (acc2 fun _ lo hi => { acc := dcell lo hi })

/-- ACCQ k: ACC / 2^k, half upward, clamped to S32; k 0 to 63; SAT V. -/
def execAccq (g : Eng) (k : BitVec 8) (s : State) : Out :=
  accCmd g s 2 (decide (k.toNat < 64)) { dOut := 1 } (fun acc _ => { acc := acc, fx := fxAccq acc k.toNat })

/-- VL from a cell: the smaller of the value, unsigned, and 1,024 (R135, R249). -/
def vlOf (v : Word) : Nat := min v.toNat 1024

/-- A class X instruction issues alone: it waits while an operation is in flight (R265). -/
def State.alone (s : State) (g : Nat) (body : State → State) : State :=
  if (s.eng g).flights ≠ [] then s.modEng g (fun e => if e.mdBusy then e.countCycle pcMdWait else e.countCycle pcLoadWait)
  else body s

end Sys2Proof.Machine
end

