-- ==== Sys2Proof/Machine/Special.lean ====
section
/-!
DEFINITION. The special registers by number (R249), RDSR and WRSR (R250, R252, R280, R281), the pointer checks of R348,
and PC_CLEAR (R346).
-/

namespace Sys2Proof.Machine

/-- Whether RDSR and WRSR of a number touch extended state (R257). -/
def srExt (n : Nat) : Bool := 6 ≤ n && n ≤ 0x0B

/-- ENGID: engine, tile, global number (R249). -/
def engId (g : Nat) : Word := BitVec.ofNat 32 (engOf g * 4096 + tileOf g * 256 + g)

/-- The value that a special register reads (R249). -/
def State.srRead (s : State) (g n : Nat) : Word :=
  let e := s.eng g
  let a := e.arch
  if 0x10 ≤ n ∧ n ≤ 0x1F then a.pr.getD (n - 0x10) 0
  else if 0x40 ≤ n ∧ n ≤ 0x55 then a.perf.getD (n - 0x40) 0
  else match n with
    | 0 => s.psw g
    | 1 => a.bank.dsp
    | 2 => a.bank.rsp
    | 3 => a.bank.dslim
    | 4 => a.bank.rslim
    | 5 => a.tsbp
    | 6 => BitVec.ofNat 32 a.ext.vl
    | 7 => loCell a.ext.acc
    | 8 => hiCell a.ext.acc
    | 9 => a.ext.tkt0
    | 0x0A => a.ext.tkt1
    | 0x0B => a.ext.wsum
    | 0x0C => BitVec.ofNat 32 (s.ctxn g)
    | 0x0D => engId g
    | 0x0E => a.remotePc
    | 0x5F => a.perfCtl
    | _ => 0

/-- RDSR n (R280): after the checks of R250 and, for 0x06 to 0x0B, the lazy swap. -/
def execRdsr (g : Eng) (n : BitVec 8) (s : State) : Out :=
  .next (s.issue g.val 2 false (srReadRing n.toNat).isSome (fun s =>
    s.alone g.val (fun s =>
      if (srReadRing n.toNat).getD 3 < (s.eng g.val).effRing then s.raise g.val { code := excPrivilege }
      else
        let read (s : State) : State :=
          s.stkOp g.val 2 { dOut := 1 } (on0 fun _ => fxCells [s.srRead g.val n.toNat])
        if srExt n.toNat then s.withExt g.val { dOut := 1 } read else read s)))

/-- Whether a WRSR to PSW from ring 1 to 3 keeps GM, IPL and RING as the PSW reads (R252). -/
def State.pswKept (s : State) (g : Nat) (v : Word) : Bool :=
  let m := 0x87030000
  bandN v.toNat m == bandN (s.psw g).toNat m

/-- A settle window opens (R340): the mode before the change governs until the count has passed. -/
def Engine.opening (e : Engine) (g : Nat) : Engine :=
  { e with arch := { e.arch with
      settles := e.arch.settles.filter (fun x => 0 < x.left) ++
        [{ left := settleCount g + 1, ring := e.ring, pr := e.arch.pr }] } }

/-- The PSW that a WRSR in ring 0 leaves: GM only outside RUN, IPL at least 1 while a frame is open (R252, R391). -/
def State.pswWritten (s : State) (e : Engine) (v : Word) : Word :=
  let v := bandN v.toNat 0x87030007
  let v := if s.mode = modeRun then putBits v 31 1 0 else v
  BitVec.ofNat 32 (if e.nd ≠ 0 then putBits v 24 3 (max 1 (getBits v 24 3)) else v)

/-- PC_CTL written: CLEAR sets the counters to 0, FREEZE and RINGS take the value (R344, R346). -/
def Arch.pcCtl (a : Arch) (v : Word) : Arch :=
  { a with perfCtl := BitVec.ofNat 32 (bandN v.toNat 0x10F),
           perf := if getBit v.toNat 4 then List.replicate 22 0 else a.perf }

/-- The pointer or limit that a WRSR would write fails R348. -/
def badPointer (b : Bank) (n : Nat) (v : Word) : Bool :=
  match n with
  | 1 => !areaOk v || !ptrIn v b.dslim
  | 2 => !areaOk v || !ptrIn v b.rslim
  | 3 => !limOk v || !ptrIn b.dsp v
  | 4 => !limOk v || !ptrIn b.rsp v
  | _ => false

/-- The engine after a special register other than PSW, DSP, RSP and a counter is written (R249, R305, R397, R526). -/
def Engine.srWrite (e : Engine) (g n : Nat) (v : Word) : Engine :=
  let a := e.arch
  if 0x10 ≤ n ∧ n ≤ 0x1F then
    let v := if n % 2 = 0 then bandN v.toNat 0xFFFFFFC0 else v.toNat
    let e := e.opening g
    { e with arch := { e.arch with pr := setAt e.arch.pr (n - 0x10) (BitVec.ofNat 32 v) } }
  else match n with
    | 3 => { e with arch := { a with bank := { a.bank with dslim := v } } }
    | 4 => { e with arch := { a with bank := { a.bank with rslim := v } } }
    | 5 =>
      let e := e.opening g
      { e with arch := { e.arch with tsbp := BitVec.ofNat 32 (bandN v.toNat 0xFFFFFFC7) } }
    | 6 => { e with arch := { a with ext := { a.ext with vl := vlOf v } } }
    | 7 => { e with arch := { a with ext := { a.ext with acc := dcell v (hiCell a.ext.acc) } } }
    | 8 => { e with arch := { a with ext := { a.ext with acc := dcell (loCell a.ext.acc) v } } }
    | 9 => { e with arch := { a with ext := { a.ext with tkt0 := v } } }
    | 0x0A => { e with arch := { a with ext := { a.ext with tkt1 := v } } }
    | 0x0B => { e with arch := { a with ext := { a.ext with wsum := v } } }
    | 0x0E => { e with arch := { a with remotePc := BitVec.ofNat 32 (bandN v.toNat 0xE0000FFF) } }
    | _ => e

/-- The write of a special register by an engine whose value has been popped, and the instruction's retirement. A
counter is written after the event of the WRSR itself (R346). -/
def State.srWrite (s : State) (g n : Nat) (v : Word) : State :=
  let e := s.eng g
  let b := e.arch.bank
  if n = 0 then
    let e := if e.effRing = 0 then
        let w := s.pswWritten e v
        let e := if pswGet w Bits.PSW_RING ≠ e.ring then e.opening g else e
        { e with arch := { e.arch with psw := w }, gmEpoch := s.gmEpoch }
      else { e with arch := { e.arch with psw := BitVec.ofNat 32 (putBits e.arch.psw.toNat 0 3 v.toNat) } }
    s.retire g e 2
  else if n = 1 then
    (s.spillCells g b.dsp b.ds).retire g
      { e.count pcSpills b.ds.length with arch := { (e.count pcSpills b.ds.length).arch with
          bank := { b with dsp := v &&& 0xFFFFFFFC, ds := [] } } } 2
  else if n = 2 then
    (s.spillCells g b.rsp b.rs).retire g
      { e.count pcSpills b.rs.length with arch := { (e.count pcSpills b.rs.length).arch with
          bank := { b with rsp := v &&& 0xFFFFFFFC, rs := [] } } } 2
  else if 0x40 ≤ n then
    (s.retire g e 2).modEng g (fun e =>
      if n ≤ 0x55 then { e with arch := { e.arch with perf := setAt e.arch.perf (n - 0x40) v } }
      else if n = 0x5F then { e with arch := e.arch.pcCtl v } else e)
  else s.retire g (e.srWrite g n v) 2

/-- WRSR n (R280): the checks of R250 and R252, the stack, the lazy swap, the checks of R348, and then the write. -/
def execWrsr (g : Eng) (n : BitVec 8) (s : State) : Out :=
  .next (s.issue g.val 2 false (srWriteRing n.toNat).isSome (fun s =>
    s.alone g.val (fun s =>
      if (srWriteRing n.toNat).getD 3 < (s.eng g.val).effRing then s.raise g.val { code := excPrivilege }
      else
        let u : StkUse := { dIn := 1 }
        let write (s : State) : State :=
          let e := s.eng g.val
          match e.arch.bank.check u with
          | .fault x => s.raise g.val x
          | .hold => s.waitFor g.val u
          | .go d _ =>
            let v := if n.toNat = 1 ∨ n.toNat = 2 then d.headD 0 &&& 0xFFFFFFFC else d.headD 0
            let b := e.arch.bank.apply u none [] []
            if n.toNat = 0 ∧ e.effRing ≠ 0 ∧ !s.pswKept g.val v then s.raise g.val { code := excPrivilege }
            else if badPointer b n.toNat v then
              s.raise g.val { code := excStack, detail := 4, faddr := v }
            else (s.setEng g.val { e.gone with arch := { e.arch with bank := b } }).srWrite g.val n.toNat v
        if srExt n.toNat then s.withExt g.val u write else write s)))

/-- A write of PC_CTL with CLEAR by an engine in ring 0 (R344, R346); from another ring it raises privilege (R250). -/
def execPcClear (g : Eng) (v : Word) (s : State) : Out :=
  .next (if !s.canIssue g.val then s
    else if (s.eng g.val).effRing ≠ 0 then s.raise g.val { code := excPrivilege }
    else s.modEng g.val (fun e => { e with arch := e.arch.pcCtl v }))

end Sys2Proof.Machine
end

