-- ==== Sys2Proof/Machine/Branch.lean ====
section
/-!
DEFINITION. Branches, calls and returns with their delay slots (R283 to R297), GATE, GRET and ERET (R384 to R386, R411 to
R414), and the firm, predictor and SYNC instructions (R294, R311, R393).

A branch looks at the bytes of its delay slot as its fetch has them. They give the slot's length, which a return address
and an annulled slot need, and whether the slot is barred (R287).
-/

namespace Sys2Proof.Machine

/-! ### The branch-class instructions -/

/-- How a branch comes out: its destination when taken, the return cells it leaves (top first), whether its slot is
annulled when not taken, and whether it took a misprediction row (R290, R337). -/
structure Taken where
  dest : Option Word
  r : List Word := []
  annul : Bool := false
  mispred : Bool := false
  btbHit : Bool := false
  btb : Option (Map (List BtbEntry)) := none
  change : SlotChange := .none

/-- One wrong-path instruction stands in DC and reads a word of the control store, which word being open; a parity error
in it leaves its traces and raises nothing (R339, R499). -/
def State.wrongWord (s : State) (g : Nat) : State :=
  let f := s.free
  let a := f.1.toNat % microWords g
  if (f.2.storeWord (vertKey g a)).vertOk then f.2
  else (f.2.ucError (tileOf g) (bnat (isLead g)) (engOf g) a).setBit (Adr.UC_STAT (tileOf g)) 1

/-- `n` of them. -/
def State.wrongWords (s : State) (g : Nat) : (n : Nat) → State
  | 0 => s
  | n + 1 => (s.wrongWord g).wrongWords g n

/-- The most wrong-path instructions that have reached DC when a branch resolves (R337: it stands in EX1, and they in DC
or earlier; UNVERIFIED, log 113). -/
def maxWrong (g : Nat) : Nat := if isLead g then 8 else 3

/-- A misprediction (R337, R339): an open number of wrong-path instructions, up to `maxWrong`, have reached DC and are
squashed. They count in FETCH_SQUASHED. -/
def State.wrongPath (s : State) (g : Nat) : State :=
  let f := s.free
  let n := f.1.toNat % (maxWrong g + 1)
  (f.2.wrongWords g n).modEng g (fun e => e.count pcSquashed n)

/-- A branch-class instruction of `len` bytes: the stacks move, the bar counts, and the delay slot is to come; where it is
annulled and not taken, execution goes on behind it (R284 to R288, R297). A slot whose bytes cannot be fetched gives its
fault once the branch itself has none (R288; for a slot that is annulled too, DEDUCED, log 114). -/
def State.branch (s : State) (g len : Nat) (row8 : Bool) (u : StkUse)
    (f : (slotLen : Nat) → List Word → List Word → Taken) : State :=
  let e := s.eng g
  let slotAt := (e.arch.pc.toNat + len) % 2 ^ 32
  match e.arch.bank.check u with
  | .fault x => s.raise g x
  | .hold => s.waitFor g u
  | .go d r =>
    match s.slotSeen g slotAt with
    | .away => s
    | .illegal => s.raise g { code := excIllegal, faddr := e.arch.pc }
    | .fault c => s.raise g { code := c, faddr := BitVec.ofNat 32 slotAt }
    | .here n =>
      let t := f n d r
      let barred := row8 && 0 < e.arch.bar
      let e1 := e.gone
      let e1 := { e1 with arch := { e1.arch with bank := e1.arch.bank.apply u none [] t.r,
                                                 bar := if row8 then e1.arch.bar - 1 else e1.arch.bar } }
      let e1 := e1.count pcBranches
      let e1 := if t.mispred || barred then e1.count pcMispred else e1
      let e1 := if t.btbHit && !barred then e1.count pcBtbHit else e1
      let e1 := match t.btb with
        | some m => if barred then e1 else { e1 with btb := m }
        | none => e1
      let s1 :=
        if t.dest.isNone && t.annul then
          ((s.retire g (e1.count pcSquashed) len).modEng g (fun x =>
            { x with arch := { x.arch with pc := x.arch.pc + BitVec.ofNat 32 n } })).wrongWord g
        else
          (s.retire g e1 len).modEng g (fun x =>
            { x with slot := some { dest := t.dest, before := e.arch, change := t.change } })
      if t.mispred || barred then s1.wrongPath g else s1

/-- A branch as a command: barred from a delay slot. -/
def branchCmd (g : Eng) (s : State) (len : Nat) (row8 : Bool) (u : StkUse)
    (f : State → (pc : Word) → (slotLen : Nat) → List Word → List Word → Taken) : Out :=
  .next (s.issueBranch g.val len (fun s =>
    s.branch g.val len row8 u (fun n d r => f s (s.eng g.val).arch.pc n d r)))

/-- The return address of a call of `len` bytes with a slot of `n` bytes (R285). -/
def retAddr (pc : Word) (len n : Nat) : Word := pc + BitVec.ofNat 32 (len + n)

/-- A conditional branch: taken or not, predicted by the sign of its displacement (R290). -/
def condTaken (pc : Word) (d : Disp) (taken annul : Bool) : Taken :=
  { dest := if taken then some (pc + Disp.val d) else none, annul := annul, mispred := taken != Disp.neg d }

/-- BRA. -/
def execBra (g : Eng) (d : Disp) (s : State) : Out :=
  branchCmd g s (Disp.len d) true {} (fun _ pc _ _ _ => { dest := some (pc + Disp.val d) })

/-- CALL: pushes ret. -/
def execCall (g : Eng) (d : Disp) (s : State) : Out :=
  branchCmd g s (Disp.len d) true { rOut := 1 }
    (fun _ pc n _ _ => { dest := some (pc + Disp.val d), r := [retAddr pc (Disp.len d) n] })

/-- RET: pops ret. -/
def execRet (g : Eng) (s : State) : Out :=
  branchCmd g s 1 true { rIn := 1 } (fun _ _ _ _ r => { dest := r.head? })

/-- The set of the branch target buffer of a PC (R335). -/
def btbSet (pc : Word) : Nat := (getBits pc.toNat 2 4) ^^^ (getBits pc.toNat 6 4)

/-- A computed jump's use of the branch target buffer: whether the entry hit with the right target, and the buffer
after it; a miss or a wrong target writes the entry, first of its set (R293, R335). -/
def State.btbUse (s : State) (g : Nat) (pc target : Word) : Bool × Map (List BtbEntry) :=
  let e := s.eng g
  let set := mget [] e.btb (btbSet pc)
  let mine (x : BtbEntry) : Bool := x.pc == pc && x.ctxn == s.ctxn g && x.ring == e.ring
  let new : BtbEntry := { pc := pc, ctxn := s.ctxn g, ring := e.ring, target := target }
  let hit := (set.find? mine).any (fun x => x.target == target)
  (hit, mset e.btb (btbSet pc) ((new :: set.filter (fun x => !mine x)).take 4))

/-- A computed jump to a cell. -/
def State.computed (s : State) (g : Nat) (pc : Word) (d r : List Word) : Taken :=
  let a := d.headD 0
  let b := s.btbUse g pc a
  { dest := some a, r := r, mispred := !b.1, btbHit := b.1, btb := some b.2 }

/-- JMPI. -/
def execJmpi (g : Eng) (s : State) : Out :=
  branchCmd g s 1 true { dIn := 1 } (fun s pc _ d _ => s.computed g.val pc d [])

/-- CALLI: pushes ret. -/
def execCalli (g : Eng) (s : State) : Out :=
  branchCmd g s 1 true { dIn := 1, rOut := 1 } (fun s pc n d _ => s.computed g.val pc d [retAddr pc 1 n])

/-- BZ: taken when the popped flag is 0. -/
def execBz (g : Eng) (d : Disp) (s : State) : Out :=
  branchCmd g s (Disp.len d) true { dIn := 1 } (fun _ pc _ f _ => condTaken pc d (f.headD 0 == 0) false)

/-- BNZ: taken when it is not 0. -/
def execBnz (g : Eng) (d : Disp) (s : State) : Out :=
  branchCmd g s (Disp.len d) true { dIn := 1 } (fun _ pc _ f _ => condTaken pc d (f.headD 0 != 0) false)

/-- BZ.A: as BZ, the slot runs only when taken. -/
def execBzA (g : Eng) (d : Disp) (s : State) : Out :=
  branchCmd g s (Disp.len d) true { dIn := 1 } (fun _ pc _ f _ => condTaken pc d (f.headD 0 == 0) true)

/-- BNZ.A. -/
def execBnzA (g : Eng) (d : Disp) (s : State) : Out :=
  branchCmd g s (Disp.len d) true { dIn := 1 } (fun _ pc _ f _ => condTaken pc d (f.headD 0 != 0) true)

/-- NEXT: the count less 1 stays when taken, and goes when it has reached 0 (R284, R285). -/
def nextTaken (pc : Word) (d : BitVec 8) (r : List Word) (annul : Bool) : Taken :=
  let n := r.headD 0 - 1
  { condTaken pc (.rel8 d) (n != 0) annul with r := if n = 0 then [] else [n] }

/-- NEXT. -/
def execNext (g : Eng) (d : BitVec 8) (s : State) : Out :=
  branchCmd g s 2 true { rIn := 1, rOut := 1 } (fun _ pc _ _ r => nextTaken pc d r false)

/-- NEXT.A. -/
def execNextA (g : Eng) (d : BitVec 8) (s : State) : Out :=
  branchCmd g s 2 true { rIn := 1, rOut := 1 } (fun _ pc _ _ r => nextTaken pc d r true)

/-- NOP: no effect, and no delay slot (R283). -/
def execNop (g : Eng) (s : State) : Out := dataOp g s 1 true {} (fun _ _ _ => {})

/-! ### Gates -/

/-- The check of GATE n that fails first, by its detail (R384). -/
def State.gateFault (s : State) (g n : Nat) : Option Nat :=
  let c := s.reg (Adr.TIL_GATE_CTL (tileOf g) n)
  let r := (s.eng g).effRing
  if fldOf c Bits.TIL_GATE_CTL_VALID = 0 then some 0
  else if fldOf c Bits.TIL_GATE_CTL_CMAX < r then some 1
  else if r < fldOf c Bits.TIL_GATE_CTL_RING then some 2
  else none

/-- GATE n: after the checks, ret and link on the return stack, the slot in the old ring, the gate's ring, its target
(R384, R385). -/
def execGate (g : Eng) (n : BitVec 8) (s : State) : Out :=
  .next (s.issueBranch g.val 2 (fun s =>
    let e := s.eng g.val
    match s.gateFault g.val n.toNat with
    | some d => s.raise g.val { code := excGate, detail := d }
    | none =>
      let t := tileOf g.val
      s.branch g.val 2 false { rOut := 2 } (fun k _ _ =>
        { dest := some ((s.reg (Adr.TIL_GATE_PC t n.toNat)).setWidth 32),
          r := [BitVec.ofNat 32 (e.ring * 65536), retAddr e.arch.pc 2 k],
          change := .ring (s.get (Adr.TIL_GATE_CTL t n.toNat) Bits.TIL_GATE_CTL_RING) })))

/-- The detail with which GRET raises gate for a link (R386). -/
def gretFault (ring : Nat) (link : Word) : Option Nat :=
  if bandN link.toNat 0xFFFCFFFF ≠ 0 then some 3
  else if getBits link.toNat 16 2 < ring then some 4
  else none

/-- GRET: pops link and ret; the slot in the old ring, then the link's ring (R386). -/
def execGret (g : Eng) (s : State) : Out :=
  .next (s.issueBranch g.val 1 (fun s =>
    let e := s.eng g.val
    match e.arch.bank.rs with
    | link :: _ =>
      match (if stkDepth e.arch.bank.rsp e.arch.bank.rslim < 2 then none else gretFault e.effRing link.val) with
      | some d => s.raise g.val { code := excGate, detail := d }
      | none => s.branch g.val 1 false { rIn := 2 } (fun _ _ r =>
          { dest := r[1]?, change := .ring (getBits link.val.toNat 16 2) })
    | [] => s.branch g.val 1 false { rIn := 2 } (fun _ _ r => { dest := r[1]? })))

/-! ### ERET -/

/-- A frame's address as a global one, when its 64 bytes lie in the tile's scratchpads or memory (R398). -/
def framePlace (g a : Nat) : Option Nat :=
  match engPlace g a, engPlace g (a + 63) with
  | .own x, .own y | .tile x, .tile y => if y = x + 63 then some x else none
  | _, _ => none

/-- The first of the saved DSP, RSP, DSLIM and RSLIM that fails R348 (R412). -/
def frameBad (f : List Word) : Option Word :=
  let dsp := frameW f 2
  let rsp := frameW f 3
  let dl := frameW f 4
  let rl := frameW f 5
  if !areaOk dsp || !ptrIn dsp dl then some dsp
  else if !areaOk rsp || !ptrIn rsp rl then some rsp
  else if !limOk dl then some dl
  else if !limOk rl then some rl
  else none

/-- What ERET finds at its frame: the exception of R412, or the frame's words. -/
def State.eretFrame (s : State) (g : Nat) : (Exc ⊕ List Word) × State :=
  let e := s.eng g
  let a := (pswGet e.arch.tsbp Bits.TSBP_FRAME * 64 + (2 ^ 32 - 64)) % 2 ^ 32
  let bus (x : Nat) : Exc := { code := excBus, faddr := BitVec.ofNat 32 x }
  match framePlace g a with
  | none => (.inl (bus a), s)
  | some x =>
    if s.memErr x then (.inl (bus a), s)
    else
      let r := s.load x 64
      match r.bad with
      | some b => (.inl (bus (a + (b - x))), r.st)
      | none =>
        let f := cellsOf 16 r.bytes
        match frameBad f with
        | some v => (.inl { code := excStack, detail := 4, faddr := v }, r.st)
        | none =>
          if pswGet (frameW f 1) Bits.PSW_RING < e.arch.exring.headD 0 then (.inl { code := excRestore }, r.st)
          else (.inr f, r.st)

/-- Whether an engine's stores have all been performed and answered (R311, R411). -/
def Engine.drained (e : Engine) : Bool := e.flights == [] && e.sb == [] && e.waitResp == [] && e.errs == []

/-- ERET: ring 0 only; waits until the store buffer has drained, reads and checks its frame, runs its slot, and then
restores in one step (R411 to R413). -/
def execEret (g : Eng) (s : State) : Out :=
  .next (s.issueBranch g.val 1 (fun s =>
    let e := s.eng g.val
    if e.effRing ≠ 0 then s.raise g.val { code := excPrivilege }
    else if !e.drained then s
    else match s.eretFrame g.val with
      | (.inl x, s') => s'.raise g.val x
      | (.inr f, s') =>
        s'.branch g.val 1 false {} (fun _ _ _ => { dest := some (frameW f 0), change := .eret f })))

/-! ### Firm windows, WAITI, predictor control, SYNC -/

/-- An instruction of rings 0 and 1 that waits for older operations and changes only the engine (R381, R393). -/
def ring01Op (g : Eng) (s : State) (len : Nat) (f : State → Engine → Engine) : Out :=
  .next (s.issue g.val len true true (fun s =>
    if 1 < (s.eng g.val).effRing then s.raise g.val { code := excPrivilege }
    else s.alone g.val (fun s => s.retire g.val (f s (s.eng g.val)) len)))

/-- FIRM n: a firm window of min(n, LIMIT) cycles; of 0, as FIRM.END (R393, R394). -/
def execFirm (g : Eng) (n : BitVec 16) (s : State) : Out :=
  ring01Op g s 3 (fun s e =>
    let m := min n.toNat (s.get (Adr.TIL_FIRMLIM (tileOf g.val)) Bits.TIL_FIRMLIM_LIMIT)
    { e with firm := if 0 < e.firm then min m e.firm else m })

/-- FIRM.END closes the window. -/
def execFirmEnd (g : Eng) (s : State) : Out := ring01Op g s 1 (fun _ e => { e with firm := 0 })

/-- WAITI: sleeps until a source wakes the engine, then continues; one that is pending wakes it at once (R392, R393). -/
def execWaiti (g : Eng) (s : State) : Out :=
  ring01Op g s 1 (fun s e => { e with hold := if s.anyPending g.val then .none else .waiti })

/-- A predictor instruction: it changes no flag and no cell. -/
def predOp (g : Eng) (s : State) (len : Nat) (ring0 : Bool) (f : State → Engine → Engine) : Out :=
  .next (s.issue g.val len false true (fun s =>
    let e := s.eng g.val
    if ring0 ∧ e.effRing ≠ 0 then s.raise g.val { code := excPrivilege }
    else s.retire g.val (f s e) len))

/-- PFLUSH 0: the entries of the current CTXN and ring go (R294). -/
def execPflushCtx (g : Eng) (s : State) : Out :=
  predOp g s 2 false (fun s e =>
    { e with btb := e.btb.map (fun p =>
        (p.1, p.2.filter (fun x => !(x.ctxn == s.ctxn g.val && x.ring == e.ring)))) })

/-- PFLUSH 1: every entry goes; ring 0 (R294). -/
def execPflushAll (g : Eng) (s : State) : Out := predOp g s 2 true (fun _ e => { e with btb := [] })

/-- PBAR n: the bar count (R297). -/
def execPbar (g : Eng) (n : BitVec 8) (s : State) : Out :=
  predOp g s 2 false (fun _ e => { e with arch := { e.arch with bar := n.toNat } })

/-- The line at an address of a memory, as its fill reads it. -/
def State.memLine (s : State) (a x : Nat) : ILine × State :=
  if s.memErr x then ({ adr := a, bytes := List.replicate 32 0, bad := true }, s)
  else
    let r := s.load x 32
    ({ adr := a, bytes := r.bytes, bad := r.bad.isSome }, r.st)

/-- The copies of the first lines of vectors 12 to 17, read through the engine's own view of TIL_VBASE (R415). A line in
external memory comes with its LINE_FILL. -/
def State.loadVectors (s : State) (g : Nat) : State :=
  let base := (s.reg (Adr.TIL_VBASE (tileOf g))).toNat
  let r := (List.range 6).foldl (fun (acc : List ILine × State) i =>
    let a := base + 64 * (12 + i)
    match engPlace g a with
    | .own x | .tile x | .fabric x =>
      let l := acc.2.memLine a x
      (acc.1 ++ [l.1], l.2)
    | .ext _ => (acc.1 ++ [{ adr := a, bytes := [] }], acc.2)
    | _ => (acc.1 ++ [{ adr := a, bytes := List.replicate 32 0, bad := true }], acc.2)) ([], s)
  r.2.modEng g (fun e => { e with vectors := r.1 })

/-- SYNC: waits until everything earlier is complete and answered; then every mode change has settled (R311, R342). -/
def State.syncOp (s : State) (g : Nat) (k : State → State) : State :=
  let e := s.eng g
  if !e.drained then s.setEng g (e.countCycle pcSyncWait)
  else k (s.retire g { e with arch := { e.arch with settles := [] } } 1)

/-- SYNC. -/
def execSync (g : Eng) (s : State) : Out :=
  .next (s.issue g.val 1 false true (fun s => s.syncOp g.val id))

/-- SYNC.I: as SYNC, then the instruction cache and line buffer are discarded and the vector lines reloaded (R311,
R415). -/
def execSyncI (g : Eng) (s : State) : Out :=
  .next (s.issue g.val 1 false true (fun s => s.syncOp g.val (fun s =>
    (s.modEng g.val (fun e => { e with icache := [], line := none, missed := none })).loadVectors g.val)))

/-- An opcode or operand byte outside the defined set reaches issue and raises illegal opcode, whatever the control store
holds; nothing else changes (R262, R263, R491). The bytes are those that were fetched; in a delay slot the fault is the
branch's (R287). Bytes of a legal encoding raise nothing: their instruction is another command. -/
def execIllegalOpcode (g : Eng) (bytes : List Byte) (s : State) : Out :=
  .next (if illegalBytes bytes then s.issue g.val (max 1 (min 5 bytes.length)) false false id else s)

end Sys2Proof.Machine
end

