-- ==== Sys2Proof/Machine/Gate.lean ====
section
/-!
DEFINITION. Who reaches a register: the state of the block and of the target that answers ERR or NOTREADY before any
register acts (R27, R563, R588, R625, R666), the rings and initiators that each register accepts (R301 and the write rules
of the owning chapters), and the answer that the initiator gets.
-/

namespace Sys2Proof.Machine

/-! ### The answer of the target -/

/-- Whether an address is BLK_ID, BLK_MODE or a FLT_ register, which answer in every state (R563, R588, R625). -/
def alwaysOn (a : Nat) : Bool :=
  a == Adr.BLK_ID || a == Adr.BLK_MODE || (0x30004000 ≤ a && a < 0x30004060) ||
    (0x30004080 ≤ a && a < 0x30004140)

/-- Whether an address is a BOOT_ register. -/
def bootReg (a : Nat) : Bool := 0x30006000 ≤ a && a < 0x30006040

/-- The tile of a tile register's address. -/
def regTile (a : Nat) : Option Nat :=
  if 0x31000000 ≤ a ∧ a < 0x31C00000 then some ((a - 0x31000000) / 0x100000) else none

/-- Whether an offset of a tile's registers is an MRG_ register's, its shadow view included (R581, R608). -/
def mrgOffset (a : Nat) : Bool := a % 0x80000 / 0x1000 == 0x14

/-- How the host target port and the debug master are answered before their request reaches its target (R563, R588, R625,
R639, R643, R666). -/
def State.portCode (s : State) (who : Initiator) (a : Nat) (write : Bool) : Code :=
  match who with
  | .host =>
    if s.fatal then (if !write && alwaysOn a then .ok else .err)
    else if s.standby then
      (if alwaysOn a || a == Adr.MRG_STBY || a == Adr.MRG_RUNTIME then .ok else .notReady)
    else if s.mode = modeBoot then
      (if write then (if a == Adr.BLK_BOOTCTL then .ok else .err)
       else if alwaysOn a || bootReg a then .ok else .notReady)
    else .ok
  | .debug =>
    if s.poreset then .notReady
    else if s.fatal then (if !write && alwaysOn a then .ok else .err)
    else if s.standby then
      (if alwaysOn a || a == Adr.MRG_STBY || a == Adr.MRG_RUNTIME then .ok else .notReady)
    else .ok
  | _ => .ok

/-- How a target unit answers a register access: a fenced unit and a tile in Off answer ERR (R27, R666). -/
def State.unitCode (s : State) (who : Initiator) (a : Nat) : Code :=
  match regTile a with
  | some t =>
    if s.tileFenced t && who != .boot then .err
    else if s.sleep t == 3 && !mrgOffset a && who != .boot then .err
    else .ok
  | none => .ok

/-- How a register access is answered before the register acts. -/
def State.targetCode (s : State) (who : Initiator) (a : Nat) (write : Bool) : Code :=
  match s.portCode who a write with
  | .ok => s.unitCode who a
  | c => c

/-! ### Rings and initiators -/

/-- What a register's write rule says to an initiator. -/
inductive Grant where
  | ok
  /-- ERR -/
  | err
  /-- OK, without effect -/
  | ignore
  /-- privilege on the engine -/
  | priv (g : Nat)
  deriving DecidableEq, Repr

/-- A rule that accepts engines up to a ring. -/
def ringGrant (g ring top : Nat) : Grant := if ring ≤ top then .ok else .priv g

/-- Whether an initiator, an engine at `ring`, may write a register of a unit. -/
def grantEngine (p : RegPerm) (g ring unit idx : Nat) : Grant :=
  match p with
  | .r0 | .mode | .dbg | .wdog => ringGrant g ring 0
  | .r1 => ringGrant g ring 1
  | .r2 => ringGrant g ring 2
  | .all => .ok
  | .tileEng => if tileOf g = unit then .ok else .err
  | .kdone => if ring = 0 ∧ isLead g then .ok else .ignore
  | .pbIn => if ring = 0 then .err else .priv g
  | .pbOut => if g = idx then .ok else .err

/-- Whether the host may write a register. -/
def grantHost (p : RegPerm) : Grant :=
  match p with
  | .r0 | .r1 | .r2 | .all => .ok
  | _ => .err

/-- Whether the debug master may write a register: as an engine in ring 0, except where a rule names it (R642). -/
def grantDebug (p : RegPerm) : Grant :=
  match p with
  | .tileEng | .wdog | .pbOut => .err
  | .kdone => .ignore
  | _ => .ok

/-- Whether an initiator may write a register. The relay hub and a figure have no ring: only registers that accept
every initiator take their writes (DESIGN CHOICE, log 20). -/
def grant (p : RegPerm) (who : Initiator) (ring unit idx : Nat) : Grant :=
  match who with
  | .engine g => grantEngine p g.val ring unit idx
  | .host => grantHost p
  | .debug => grantDebug p
  | .boot => .ok
  | .relay | .fig _ => if p = .all then .ok else .err

/-- The ring at which an initiator's access is judged. -/
def State.ringOf (s : State) (who : Initiator) : Nat :=
  match who with
  | .engine g => (s.eng g.val).effRing
  | _ => 0

/-! ### Answers -/

/-- The answer to an access, with its data. An ERR to a store of an engine is on its way to the engine (R324). -/
def State.reply (s : State) (who : Initiator) (c : Code) (a : Nat) : State :=
  let s := s.answer who c
  match who, c with
  | .engine g, .err =>
    s.modEng g.val (fun e => { e with errs := e.errs ++ [{ faddr := BitVec.ofNat 32 a, ctx := s.ctxOf g.val }] })
  | _, _ => s

/-- The answer to a write that had to wait. -/
def State.replyLate (s : State) (who : Initiator) (id : Nat) (c : Code) (a : Nat) : State :=
  let s := match who with
    | .engine g =>
      (match (s.eng g.val).waitResp.find? (fun x => x.faddr.toNat == a) with
        | some x => (s.answer who c).modEng g.val (fun e =>
            { e with waitResp := e.waitResp.erase x, errs := if c = .err then e.errs ++ [x] else e.errs })
        | none => s.reply who c a)
    | _ => s.reply who c a
  if who = .host then s.hostDone id c 0 else if who = .debug then s.masterDone { code := c } else s

/-- A tile leaves Nap: its PLL runs and its rail stands at the active VT (R581). -/
def State.leaveNap (s : State) (t : Nat) : State :=
  if s.sleep t == 2 then
    { s.setPower t { s.power t with rail := s.get (Adr.MRG_PAIR t) Bits.MRG_PAIR_VT } with
      plls := putBits s.plls (3 + t) 1 1 }
  else s

/-- A tile that dozes or naps comes to Run (R583). -/
def State.wakeNow (s : State) (t : Nat) : State :=
  if s.sleep t == 1 || s.sleep t == 2 then
    { (s.leaveNap t).put (Adr.MRG_TSTAT t) Bits.MRG_TSTAT_SLEEP 0 with wakes := s.wakes.filter (· != t) }
  else s

/-- A cause of R583 that wakes a tile; the tile reaches Run at its TILE_WAKE. -/
def State.wake (s : State) (t : Nat) : State :=
  if (s.sleep t == 1 || s.sleep t == 2) && !s.wakes.contains t then { s with wakes := s.wakes ++ [t] } else s

/-- Whether a register of a tile runs on the FBCLK side and is reached without a wake: comparators, doorbell pending
bits and MRG_ registers (R581). -/
def fbclkSide (a : Nat) : Bool :=
  let o := a % 0x80000
  (0x4000 ≤ o && o < 0x5000) || (0xE000 ≤ o && o < 0xF000) || o / 0x1000 == 0x14

/-- The state in which a register access is served. -/
def State.served (s : State) (a : Nat) : State :=
  match regTile a with
  | some t => if fbclkSide a then s else s.wakeNow t
  | none => s

/-- A command that is the write of a register: privilege on an engine, which it meets before its request goes out (R301);
the target's state, the register's write rule, then its effect `body`, which says how it is answered (none: later). -/
def State.commandLater (s : State) (who : Initiator) (p : RegPerm) (unit idx a : Nat)
    (body : State → State × Option Code) : State :=
  match grant p who (s.ringOf who) unit idx, s.targetCode who a true with
  | .priv g, _ => if s.canIssue g then s.raise g { code := excPrivilege, faddr := BitVec.ofNat 32 a } else s
  | .ok, .ok =>
    let r := body (s.served a)
    (match r.2 with
      | some c => r.1.reply who c a
      | none => r.1)
  | .ignore, .ok => s.reply who .ok a
  | .err, .ok => s.reply who .err a
  | _, c => s.reply who c a

/-- The same of a write that is answered at once. -/
def State.command (s : State) (who : Initiator) (p : RegPerm) (unit idx a : Nat) (body : State → State × Code) : State :=
  s.commandLater who p unit idx a (fun s => ((body s).1, some (body s).2))

/-- A command whose effect is always answered OK. -/
def State.commandOk (s : State) (who : Initiator) (p : RegPerm) (unit a : Nat) (body : State → State) : State :=
  s.command who p unit 0 a (fun s => (body s, .ok))

/-- Whether an initiator sends requests: a fenced or frozen engine sends none (R27, R438). -/
def State.sends (s : State) (who : Initiator) : Bool :=
  match who with
  | .engine g => !s.tileFenced (tileOf g.val) && !s.engFenced g.val && !(s.eng g.val).frozen
  | _ => true

/-- A read of a register that answers `v` and leaves the state at `f`: an ERR to an engine is precise (R301), and a read
of the debug master is a peek without the side effect (R642). -/
def State.readCommand (s : State) (who : Initiator) (a : Nat) (v : State → DWord) (f : State → State) : State :=
  if !s.sends who then s
  else match s.targetCode who a false with
  | .ok =>
    let s := s.served a
    let d := v s
    (if who = .debug then s else f s).answer who .ok d
  | c =>
    match who with
    | .engine g => if s.canIssue g.val then s.raise g.val { code := excBus, faddr := BitVec.ofNat 32 a } else s
    | _ => s.answer who c

/-- The source that a writer shows as in CAL_CTXk_EVENT.SRC (R359): an engine's number, 0xFFE for the host, 0xFFF for the
debug master; open for any other initiator. -/
def State.writerSrc (s : State) (who : Initiator) : Nat × State :=
  match who with
  | .engine g => (g.val, s)
  | .host => (0xFFE, s)
  | .debug => (0xFFF, s)
  | _ =>
    let f := s.free
    (f.1.toNat % 4096, f.2)

end Sys2Proof.Machine
end

