-- ==== Sys2Proof/Machine/Caller.lean ====
section
/-!
DEFINITION. The caller (chapter 9): task contexts and their commands (R358 to R362), events (R363), CAL_PARK (R364),
placement (R365 to R368), switching, draining and preloading (R368 to R374), and the extended state of a context that is
placed elsewhere (R377).
-/

namespace Sys2Proof.Machine

/-! ### Context descriptors -/

/-- STATE of a context (R359). -/
def ctxFree : Nat := 0
def ctxWaiting : Nat := 1
def ctxReady : Nat := 2
def ctxRunning : Nat := 3
def ctxHeld : Nat := 4
def ctxLost : Nat := 5

def State.ctxState (s : State) (t c : Nat) : Nat := s.get (Adr.CAL_CTX_CTL t c) Bits.CAL_CTX_CTL_STATE

/-- PRIO and AFF of a context; those of context 0 read 15 and E0 alone (R361). -/
def State.ctxPrio (s : State) (t c : Nat) : Nat :=
  if c = 0 then 15 else s.get (Adr.CAL_CTX_CTL t c) Bits.CAL_CTX_CTL_PRIO
def State.ctxAff (s : State) (t c : Nat) : Nat :=
  if c = 0 then 1 else s.get (Adr.CAL_CTX_CTL t c) Bits.CAL_CTX_CTL_AFF

/-- READY contexts of a tile in the order in which they became READY. -/
def State.readyList (s : State) (t : Nat) : List Nat := mget [] s.ready t

/-- A context leaves the READY contexts. -/
def State.unready (s : State) (t c : Nat) : State :=
  { s with ready := mset s.ready t ((s.readyList t).filter (· != c)) }

/-- A context takes a STATE other than READY. -/
def State.setCtx (s : State) (t c st : Nat) : State :=
  (s.unready t c).put (Adr.CAL_CTX_CTL t c) Bits.CAL_CTX_CTL_STATE st

/-- A context becomes READY, at the tail of its priority or, preempted, at its head (R365). -/
def State.makeReady (s : State) (t c : Nat) (head : Bool) : State :=
  let s := (s.setCtx t c ctxReady).setReg (Adr.CAL_CTX_READYT t c) ((s.time.setWidth 32).setWidth 64)
  { s with ready := mset s.ready t (if head then c :: s.readyList t else s.readyList t ++ [c]) }

/-- A failed save or preload: the context is LOST, and "context save" is reported (R372). -/
def State.loseContext (s : State) (t c : Nat) : State :=
  (s.setCtx t c ctxLost).report 1 (srcTile t 8) (BitVec.ofNat 32 c)

/-! ### Events (R363) -/

/-- One event for a context of a tile: KIND 1 doorbell, 2 angle, 3 figure, 4 software. -/
def State.event (s : State) (t c kind src : Nat) : State :=
  let st := s.ctxState t c
  let ev := Adr.CAL_CTX_EVENT t c
  if st = ctxFree ∨ st = ctxLost then
    (s.countSat (Adr.CAL_LOSTEV t) Bits.CAL_LOSTEV_COUNT).put (Adr.CAL_STAT t) Bits.CAL_STAT_EVLOST 1
  else
    let s := (s.put ev Bits.CAL_CTX_EVENT_KIND kind).put ev Bits.CAL_CTX_EVENT_SRC src
    if st = ctxWaiting then (s.makeReady t c false).wake t
    else if s.get ev Bits.CAL_CTX_EVENT_EVCNT = 0xFFFF then s.put ev Bits.CAL_CTX_EVENT_EOVF 1
    else s.put ev Bits.CAL_CTX_EVENT_EVCNT (s.get ev Bits.CAL_CTX_EVENT_EVCNT + 1)

/-! ### Commands (R362) -/

/-- A command is refused. -/
def State.cmdRefused (s : State) (t : Nat) : State := s.put (Adr.CAL_STAT t) Bits.CAL_STAT_CMDREF 1

/-- The engine of a tile that runs a context. -/
def State.engineOf (s : State) (t c : Nat) : Option Nat :=
  (firstBelow 16 (fun e => s.placed (16 * t + e) && s.ctxOf (16 * t + e) == c)).map (fun e => 16 * t + e)

/-- A running context is to be switched out at the next boundary of R366. -/
def State.askOff (s : State) (t c : Nat) (k : Leave) : State :=
  match s.engineOf t c with
  | some g => s.modEng g (fun e => { e with switchTo := some k })
  | none => s

/-- LOAD. -/
def State.calLoad (s : State) (t c : Nat) : State :=
  if c = 0 ∨ s.ctxState t c ≠ ctxFree then s.cmdRefused t
  else
    let a := Adr.CAL_CTX_CTL t c
    let s := (s.setCtx t c ctxWaiting).put a Bits.CAL_CTX_CTL_GEN ((s.get a Bits.CAL_CTX_CTL_GEN + 1) % 8)
    ((s.put a Bits.CAL_CTX_CTL_DFLT 0).setReg (Adr.CAL_CTX_EVENT t c) 0).setReg (Adr.CAL_CTX_DFADDR t c) 0

/-- HOLD. -/
def State.calHold (s : State) (t c : Nat) : State :=
  let st := s.ctxState t c
  if c = 0 then s.cmdRefused t
  else if st = ctxWaiting ∨ st = ctxReady ∨ st = ctxHeld then s.setCtx t c ctxHeld
  else if st = ctxRunning then s.askOff t c .held
  else s.cmdRefused t

/-- RELEASE. -/
def State.calRelease (s : State) (t c : Nat) : State :=
  if c = 0 ∨ s.ctxState t c ≠ ctxHeld then s.cmdRefused t else s.makeReady t c false

/-- FREE. -/
def State.calFree (s : State) (t c : Nat) : State :=
  let st := s.ctxState t c
  if c = 0 then s.cmdRefused t
  else if st = ctxWaiting ∨ st = ctxReady ∨ st = ctxHeld ∨ st = ctxLost then s.setCtx t c ctxFree
  else if st = ctxRunning then s.askOff t c .free
  else s.cmdRefused t

/-- A write of CAL_CMD (R379). -/
def State.calCmd (s : State) (t op c : Nat) : State :=
  match op with
  | 1 => s.calLoad t c
  | 2 => s.calHold t c
  | 3 => s.calRelease t c
  | 4 => s.calFree t c
  | _ => s.cmdRefused t

/-- A software event by a write of CAL_READY (R363, R379). -/
def State.calReady (s : State) (who : Initiator) (t c : Nat) : State :=
  let w := s.writerSrc who
  w.2.event t c 4 w.1

/-! ### Switching (R366, R369, R370, R371) -/

/-- The cells of a bank are drained to its stack areas, the outgoing words go to the frame at TSBP.FRAME, and DSLIM,
RSLIM and TSBP to the descriptor; none when a write fails (R370, R372). -/
def State.drainTo (s : State) (g c : Nat) (a : Arch) : Option State :=
  let t := tileOf g
  let b := a.bank
  let frame := pswGet a.tsbp Bits.TSBP_FRAME * 64
  let dlow := spMove b.dsp (-(b.ds.length : Int))
  let rlow := spMove b.rsp (-(b.rs.length : Int))
  let s := (s.settleEnds (stkAdr g dlow) (4 * b.ds.length)).settleEnds (stkAdr g rlow) (4 * b.rs.length)
  let fails (p : Word) (n : Nat) : Bool := n != 0 && (!areaOk p || s.writeFails (stkAdr g p) n)
  match framePlace g frame with
  | none => none
  | some x =>
    let s := (s.settleEnds x 16).settleEnds (x + 0x18) 20
    if fails dlow (4 * b.ds.length) || fails rlow (4 * b.rs.length) || s.writeFails x 16 || s.writeFails (x + 0x18) 20 then
      none
    else
      let s := ((s.spillCells g b.dsp b.ds).spillCells g b.rsp b.rs).modEng g
        (fun e => e.count pcSpills (b.ds.length + b.rs.length))
      let n := min 4 (stkDepth b.dsp b.dslim)
      let tops := (List.range 4).foldl (fun (f : Fill) i =>
        if i < n then
          match b.ds[i]? with
          | some c => { f with cells := f.cells ++ [c] }
          | none => f.cell g (cellForm b.dsp i)
        else { f with cells := f.cells ++ [{ val := 0 }] }) ({ st := s } : Fill)
      let w (c : Cell) : Word := if c.poison then 0 else c.val
      let pmask := maskOf 4 (fun i => (tops.cells.getD i { val := 0 }).poison)
      let cause := BitVec.ofNat 32 (pmask * 256 + n)
      let s := tops.st.store false x (cellBytes [a.pc, a.psw, b.dsp, b.rsp])
      let s := s.store false (x + 0x18) (cellBytes (tops.cells.map w ++ [cause]))
      let s := s.setReg (Adr.CAL_CTX_DSLIM t c) (b.dslim.setWidth 64)
      let s := s.setReg (Adr.CAL_CTX_RSLIM t c) (b.rslim.setWidth 64)
      some (s.setReg (Adr.CAL_CTX_TSBP t c) (a.tsbp.setWidth 64))

/-- The draining bank of an engine drains (R370). -/
def State.bankDrain (s : State) (g : Nat) : State :=
  match (s.eng g).idle with
  | .draining c a =>
    let s' := match s.drainTo g c a with
      | some s' => s'
      | none => s.loseContext (tileOf g) c
    s'.modEng g (fun e => { e with idle := .empty })
  | _ => s

/-- What becomes of a context that leaves its engine. -/
def State.leaveAs (s : State) (t c : Nat) (k : Leave) : State :=
  match k with
  | .free => s.setCtx t c ctxFree
  | .waiting => s.setCtx t c ctxWaiting
  | .held => s.setCtx t c ctxHeld
  | .tail => s.makeReady t c false
  | .head => s.makeReady t c true

/-- An ERR to a store of a context that no longer runs waits in its descriptor (R374). -/
def State.deferTo (s : State) (t : Nat) (x : StoreAnswer) : State :=
  (s.put (Adr.CAL_CTX_CTL t x.ctx) Bits.CAL_CTX_CTL_DFLT 1).setReg (Adr.CAL_CTX_DFADDR t x.ctx) (x.faddr.setWidth 64)

/-- The running context leaves its engine: its bank drains from now on, its link and its PBAR count go (R371). -/
def State.switchOut (s : State) (g : Nat) (k : Leave) : State :=
  let t := tileOf g
  let c := s.ctxOf g
  let out : Arch := { (s.eng g).arch with psw := pswPut (s.psw g) Bits.PSW_FIRM 0 }
  let s := (s.eng g).arrived.foldl (fun s x => s.deferTo t x) s
  let s := (s.leaveAs t c k).put (Adr.CAL_CTX_CTL t c) Bits.CAL_CTX_CTL_ENG (engOf g)
  let s := (s.put (Adr.CAL_ENG t (engOf g)) Bits.CAL_ENG_PLACED 0).put (Adr.CAL_ENG t (engOf g)) Bits.CAL_ENG_CTX 0
  s.modEng g (fun e => { e with
    idle := .draining c out, link := none, hold := .none, switchTo := none, slot := none, arrived := [],
    spillD := false, spillR := false, fillD := false, fillR := false,
    arch := { e.arch with bank := {}, bar := 0, settles := [] } })

/-- Copies of a context that other engines of the tile have preloaded go: their preload restarts (R368). -/
def State.unload (s : State) (t c g : Nat) : State :=
  (List.range 16).foldl (fun s d =>
    let h := 16 * t + d
    match (s.eng h).idle with
    | .loaded x _ => if x = c ∧ h ≠ g then s.modEng h (fun e => { e with idle := .empty }) else s
    | _ => s) s

/-- The preloaded context comes onto its engine (R369, R371, R374): what the switch does not save stays the engine's. GM
comes on as 0 in RUN (R35). -/
def State.switchIn (s : State) (g c : Nat) (a : Arch) : State :=
  let t := tileOf g
  let ce := Adr.CAL_ENG t (engOf g)
  let ctl := Adr.CAL_CTX_CTL t c
  let dflt := s.get ctl Bits.CAL_CTX_CTL_DFLT == 1
  let dfaddr : Word := (s.reg (Adr.CAL_CTX_DFADDR t c)).setWidth 32
  let s := (s.setCtx t c ctxRunning).put ctl Bits.CAL_CTX_CTL_ENG (engOf g)
  let s := s.put ctl Bits.CAL_CTX_CTL_DFLT 0
  let s := ((s.put ce Bits.CAL_ENG_PLACED 1).put ce Bits.CAL_ENG_CTX c).put ce Bits.CAL_ENG_DECKV 0
  let reload := s.get (Adr.TIL_WDCFG t) Bits.TIL_WDCFG_RELOAD * 32
  let s := s.unload t c g
  s.modEng g (fun e =>
    let ipl := pswGet a.psw Bits.PSW_IPL
    let psw := pswPut a.psw Bits.PSW_IPL (if e.nd = 0 then ipl else max 1 ipl)
    let psw := if s.mode = modeRun then pswPut psw Bits.PSW_GM 0 else psw
    let e := { e with
      arch := { e.arch with pc := a.pc, psw := psw, bank := a.bank, tsbp := a.tsbp, settles := [], bar := 0 },
      idle := (match e.idle with
        | .loaded _ _ => .empty
        | i => i),
      link := none, hold := .none, switchTo := none, slot := none, gmEpoch := s.gmEpoch, wdog := reload,
      spillD := false, spillR := false, fillD := false, fillR := false,
      exc := if dflt then some { code := excBus, faddr := dfaddr, defer := true } else none }
    e.count pcSwitches)

/-- Whether an engine's tile runs and neither is fenced or frozen. -/
def State.inService (s : State) (g : Nat) : Bool :=
  s.sleep (tileOf g) == 0 && !s.tileFenced (tileOf g) && !s.engFenced g && !(s.eng g).frozen

/-- READY contexts in the order of R365. -/
def State.readyOrder (s : State) (t : Nat) : List Nat :=
  (List.range 16).reverse.flatMap (fun p => (s.readyList t).filter (fun c => s.ctxPrio t c == p))

/-- Whether the caller places contexts on engine `e` of a tile: RUN, not fenced. -/
def State.takes (s : State) (t e : Nat) : Bool :=
  getBit (s.get (Adr.CAL_CTL t) Bits.CAL_CTL_RUN) e && s.inService (16 * t + e)

/-- Whether a context still drains from an engine of the tile other than `e`; it is then not placeable on `e` (R370). -/
def State.drainsElsewhere (s : State) (t e c : Nat) : Bool :=
  (List.range 16).any (fun d => match (s.eng (16 * t + d)).idle with
    | .draining x _ => d != e && x == c
    | _ => false)

/-- Whether engine `e` may take a context. -/
def State.fits (s : State) (t c e : Nat) (taken : List Nat) : Bool :=
  getBit (s.ctxAff t c) e && s.takes t e && !taken.contains e && !s.drainsElsewhere t e c

/-- The engine that R365 gives a READY context: the lowest idle one, or the one of lowest PRIO below its own, the
highest-numbered among equals. -/
def State.chosen (s : State) (t c : Nat) (taken : List Nat) : Option Nat :=
  match firstBelow 16 (fun e => s.fits t c e taken && !s.placed (16 * t + e)) with
  | some e => some e
  | none =>
    let prio (e : Nat) : Nat := s.ctxPrio t (s.ctxOf (16 * t + e))
    ((List.range 16).filter (fun e => s.fits t c e taken && s.placed (16 * t + e) && prio e < s.ctxPrio t c)).foldl
      (fun b e => match b with
        | none => some e
        | some d => if prio e ≤ prio d then some e else some d) none

/-- The placements that R365 gives, engine and context, in its order. -/
def State.plan (s : State) (t : Nat) : List (Nat × Nat) :=
  (s.readyOrder t).foldl (fun acc c => match s.chosen t c (acc.map (·.1)) with
    | some e => acc ++ [(e, c)]
    | none => acc) []

/-- Whether R365 now gives the context that is preloaded in an engine's idle bank to that engine. -/
def State.placedNext (s : State) (g c : Nat) : Bool := (s.plan (tileOf g)).contains (engOf g, c)

/-- The outgoing context leaves, and the preloaded one comes on when R365 then gives it the engine. -/
def State.switchOver (s : State) (g : Nat) (k : Leave) : State :=
  let s' := s.switchOut g k
  match (s.eng g).idle with
  | .loaded c a => if s'.placedNext g c then s'.switchIn g c a else s'
  | _ => s'

/-- CONTEXT_SWITCH: at a boundary of R366, or on an engine without a context, the bank select flips. An outgoing
instruction in flight, a bank that has not drained, and an interrupt that is recognised at the boundary hold the switch;
a preemption goes on only while R365 still asks for it (R366, R369). -/
def State.contextSwitch (s : State) (g : Nat) : State :=
  let e := s.eng g
  if !s.inService g || e.flights ≠ [] then s
  else if !s.placed g then
    match e.idle with
    | .loaded c a => if s.placedNext g c then s.switchIn g c a else s
    | _ => s
  else if !e.atSwitch then s
  else if e.arrived ≠ [] then s.takeDeferred g
  else if (s.recognisable g (0 < e.firm)).isSome then s
  else match e.switchTo, e.idle with
    | some .head, .loaded c _ => if s.placedNext g c then s.switchOver g .head else s
    | some .head, _ => s
    | some _, .draining _ _ => s
    | some k, _ => s.switchOver g k
    | none, _ => s

/-! ### CAL_PARK (R364) -/

/-- The parked context leaves its engine, with what a HOLD or FREE asked meanwhile, and the preloaded one comes. -/
def State.parkOut (s : State) (g : Nat) (k : Leave) : State :=
  let k := match (s.eng g).switchTo with
    | some .held => .held
    | some .free => .free
    | _ => k
  (s.bankDrain g).switchOver g k

/-- The engine goes on behind its CAL_PARK store. -/
def State.unpark (s : State) (g : Nat) : State := s.modEng g (fun e => { e with hold := .none })

/-- The response of a CAL_PARK store with operation `op` comes, when the engine holds for one. -/
def State.parked (s : State) (g op : Nat) (body : State → State) : State :=
  if (s.eng g).hold = .park op ∧ s.inService g then body s else s

/-- WAIT. -/
def State.parkWait (s : State) (g : Nat) : State :=
  s.parked g 0 (fun s =>
    let ev := Adr.CAL_CTX_EVENT (tileOf g) (s.ctxOf g)
    let n := s.get ev Bits.CAL_CTX_EVENT_EVCNT
    if 0 < n then (s.put ev Bits.CAL_CTX_EVENT_EVCNT (n - 1)).unpark g else s.parkOut g .waiting)

/-- YIELD: goes on at once when no other READY context of its own PRIO or higher has the engine in its AFF. -/
def State.parkYield (s : State) (g : Nat) : State :=
  s.parked g 1 (fun s =>
    let t := tileOf g
    let p := s.ctxPrio t (s.ctxOf g)
    if (s.readyList t).any (fun c => p ≤ s.ctxPrio t c && getBit (s.ctxAff t c) (engOf g)) then s.parkOut g .tail
    else s.unpark g)

/-- END. -/
def State.parkEnd (s : State) (g : Nat) : State := s.parked g 2 (fun s => s.parkOut g .free)

/-! ### Placement (R365, R367, R368) -/

/-- The on-deck contexts of a tile's engines: the placements, and for every other engine the first READY context, of those
that are not being placed, that R365 could place there. One context may be on deck for several engines (R368). -/
def State.decks (s : State) (t : Nat) : List (Nat × Nat) :=
  let p := s.plan t
  (List.range 16).foldl (fun acc e =>
    if acc.any (fun x => x.1 == e) then acc
    else match (s.readyOrder t).find? (fun c => s.fits t c e [] && !p.any (fun x => x.2 == c)) with
      | some c => acc ++ [(e, c)]
      | none => acc) p

/-- An engine's on-deck context is set; a preload of another one restarts (R368). -/
def State.setDeck (s : State) (g : Nat) (d : Option Nat) : State :=
  let ce := Adr.CAL_ENG (tileOf g) (engOf g)
  let s := match d with
    | some c => (s.put ce Bits.CAL_ENG_DECK c).put ce Bits.CAL_ENG_DECKV 1
    | none => (s.put ce Bits.CAL_ENG_DECK 0).put ce Bits.CAL_ENG_DECKV 0
  s.modEng g (fun e => { e with idle := match e.idle with
    | .loaded c a => if d = some c then .loaded c a else .empty
    | i => i })

/-- Whether a preemption is asked of an engine, or withdrawn. -/
def State.setPreempt (s : State) (g : Nat) (want : Bool) : State :=
  let asked := s.placed g && want
  s.modEng g (fun e =>
    let k := match e.switchTo with
      | none => if asked then some .head else none
      | some .head => if asked then some .head else none
      | some k => some k
    { e with switchTo := k })

/-- The counts of one cycle of an engine whose FCLK runs (R344): the cycle; whether a lead engine issued two instructions
in it and how many bank conflicts its accesses lost (R325, R455) is timing, and open (log 116). -/
def State.cycleCounts (s : State) (g : Nat) : State :=
  let f := s.free
  let v := f.1.toNat
  f.2.modEng g (fun e =>
    let e := (e.countCycle pcCycles).countCycle pcBankLost (v / 2 % 4)
    if isLead g then e.countCycle pcPaired (v % 2) else e)

/-- The counts of one FCLK of a tile: firm windows run down to their last cycle (R394), and engines whose FCLK runs
count (R344). -/
def State.fclkCounts (s : State) (t : Nat) : State :=
  (List.range 16).foldl (fun s i =>
    let g := 16 * t + i
    let e := s.eng g
    let asleep := e.hold == .waiti && !s.anyPending g
    let s := if 1 < e.firm then s.modEng g (fun e => { e with firm := e.firm - 1 }) else s
    if s.placed g && !asleep && !e.frozen then s.cycleCounts g else s) s

/-- CALLER_DECISION: the placements and on-deck contexts that R365 and R368 give. -/
def State.callerDecision (s : State) (t : Nat) : State :=
  if s.sleep t != 0 || s.tileFenced t then s
  else
    let s := s.fclkCounts t
    let p := s.plan t
    let d := s.decks t
    (List.range 16).foldl (fun s e =>
      let g := 16 * t + e
      (s.setDeck g ((d.find? (fun x => x.1 == e)).map (·.2))).setPreempt g (p.any (fun x => x.1 == e))) s

/-! ### Preloading and the extended state (R368, R377) -/

/-- The `n` cells from a stack pointer down: none when its area is none, or its memory answers ERR or with uncorrectable
data; the reads count either way. -/
def Fill.cellsFrom (f : Fill) (g : Nat) (sp : Word) : Nat → Bool × Fill
  | 0 => (true, f)
  | n + 1 =>
    let p := cellForm sp 0
    if !areaOk sp || f.st.memErr (stkAdr g p) then (false, f)
    else
      let r := f.cell g p
      if (r.cells.getLastD { val := 0 }).poison then (false, r) else r.cellsFrom g (spMove sp (-1)) n

/-- A context's state as its descriptor, its frame and its stack areas hold it; none where a read fails (R368, R372). -/
def State.readContext (s : State) (g c : Nat) : Option Arch × State :=
  let t := tileOf g
  let w (a : Nat) : Word := (s.reg a).setWidth 32
  let tsbp := w (Adr.CAL_CTX_TSBP t c)
  match framePlace g (pswGet tsbp Bits.TSBP_FRAME * 64) with
  | none => (none, s)
  | some x =>
    if s.memErr x then (none, s)
    else
      let r := s.load x 16
      if r.bad.isSome then (none, r.st)
      else
        let f := cellsOf 4 r.bytes
        let dsp := frameW f 2
        let rsp := frameW f 3
        let dl := w (Adr.CAL_CTX_DSLIM t c)
        let rl := w (Adr.CAL_CTX_RSLIM t c)
        let ds := Fill.cellsFrom { st := r.st } g dsp (min 8 (stkDepth dsp dl))
        if !ds.1 then (none, ds.2.st)
        else
          let rs := Fill.cellsFrom { st := ds.2.st } g rsp (min 4 (stkDepth rsp rl))
          if !rs.1 then (none, rs.2.st)
          else
            (some { pc := frameW f 0, psw := BitVec.ofNat 32 (bandN (frameW f 1).toNat 0x87030007), tsbp := tsbp,
                    bank := { dsp := dsp, rsp := rsp, dslim := dl, rslim := rl, ds := ds.2.cells, rs := rs.2.cells } },
              rs.2.st)

/-- Whether an engine of the tile other than `g` holds a context's extended state. -/
def State.ownedElsewhere (s : State) (g c : Nat) : Bool :=
  (List.range 16).any (fun d => d != engOf g &&
    s.get (Adr.CAL_ENG (tileOf g) d) Bits.CAL_ENG_XOWNV == 1 && s.get (Adr.CAL_ENG (tileOf g) d) Bits.CAL_ENG_XOWN == c)

/-- PRELOAD: the on-deck context is loaded into the idle bank, once that bank, and the context's cells elsewhere, have
drained, and its extended state has been written (R368, R377). -/
def State.preload (s : State) (g : Nat) : State :=
  let t := tileOf g
  let ce := Adr.CAL_ENG t (engOf g)
  let c := s.get ce Bits.CAL_ENG_DECK
  if !s.inService g || s.get ce Bits.CAL_ENG_DECKV != 1 || s.ctxState t c != ctxReady || (s.eng g).idle != .empty ||
      s.drainsElsewhere t (engOf g) c || s.ownedElsewhere g c then s
  else match s.readContext g c with
    | (some a, s') => s'.modEng g (fun e => { e with idle := .loaded c a })
    | (none, s') => s'.loseContext t c

/-- Whether a context is on deck or running on an engine of the tile other than `g`. -/
def State.placedElsewhere (s : State) (g c : Nat) : Bool :=
  (List.range 16).any (fun d => d != engOf g &&
    let ce := s.reg (Adr.CAL_ENG (tileOf g) d)
    ((fldOf ce Bits.CAL_ENG_DECKV == 1 && fldOf ce Bits.CAL_ENG_DECK == c) ||
      (fldOf ce Bits.CAL_ENG_PLACED == 1 && fldOf ce Bits.CAL_ENG_CTX == c)))

/-- XSAVE_WRITEBACK: an engine writes the extended state of a context that is placed elsewhere to its save area; when
that fails the context is LOST (R377). -/
def State.xsaveWriteback (s : State) (g : Nat) : State :=
  let t := tileOf g
  let ce := Adr.CAL_ENG t (engOf g)
  let c := s.get ce Bits.CAL_ENG_XOWN
  if s.get ce Bits.CAL_ENG_XOWNV != 1 || !s.placedElsewhere g c then s
  else
    let s' := match (s.saveArea g c).filter (fun x => !s.writeFails x 48) with
      | some x => s.saveExt g c x
      | none => s.loseContext t c
    s'.put ce Bits.CAL_ENG_XOWNV 0

/-! ### The commands -/

/-- CAL_LOAD. -/
def execCalLoad (who : Initiator) (t : Tile) (c : Fin 512) (s : State) : Out :=
  .next (s.commandOk who .r0 t.val (Adr.CAL_CMD t.val) (fun s => s.calLoad t.val c.val))

/-- CAL_HOLD. -/
def execCalHold (who : Initiator) (t : Tile) (c : Fin 512) (s : State) : Out :=
  .next (s.commandOk who .r0 t.val (Adr.CAL_CMD t.val) (fun s => s.calHold t.val c.val))

/-- CAL_RELEASE. -/
def execCalRelease (who : Initiator) (t : Tile) (c : Fin 512) (s : State) : Out :=
  .next (s.commandOk who .r0 t.val (Adr.CAL_CMD t.val) (fun s => s.calRelease t.val c.val))

/-- CAL_FREE. -/
def execCalFree (who : Initiator) (t : Tile) (c : Fin 512) (s : State) : Out :=
  .next (s.commandOk who .r0 t.val (Adr.CAL_CMD t.val) (fun s => s.calFree t.val c.val))

/-- CAL_READY. -/
def execCalReady (who : Initiator) (t : Tile) (c : Fin 512) (s : State) : Out :=
  .next (s.commandOk who .r2 t.val (Adr.CAL_READY t.val) (fun s => s.calReady who t.val c.val))

/-- PARK_WAIT. -/
def execParkWait (g : Eng) (s : State) : Out := .next (s.parkWait g.val)

/-- PARK_YIELD. -/
def execParkYield (g : Eng) (s : State) : Out := .next (s.parkYield g.val)

/-- PARK_END. -/
def execParkEnd (g : Eng) (s : State) : Out := .next (s.parkEnd g.val)

/-- CALLER_DECISION: one FCLK of the tile. -/
def execCallerDecision (t : Tile) (s : State) : Out := .next (s.callerDecision t.val)

/-- PRELOAD. -/
def execPreload (g : Eng) (s : State) : Out := .next (s.preload g.val)

/-- CONTEXT_SWITCH. -/
def execContextSwitch (g : Eng) (s : State) : Out := .next (s.contextSwitch g.val)

/-- BANK_DRAIN. -/
def execBankDrain (g : Eng) (s : State) : Out := .next (s.bankDrain g.val)

/-- XSAVE_WRITEBACK. -/
def execXsaveWriteback (g : Eng) (s : State) : Out := .next (s.xsaveWriteback g.val)

/-- LOSTEV_READ: a read of CAL_LOSTEV clears its count (R9, R379). -/
def execLostevRead (who : Initiator) (t : Tile) (s : State) : Out :=
  .next (s.readCommand who (Adr.CAL_LOSTEV t.val) (fun s => s.reg (Adr.CAL_LOSTEV t.val))
    (fun s => s.put (Adr.CAL_LOSTEV t.val) Bits.CAL_LOSTEV_COUNT 0))

end Sys2Proof.Machine
end

