-- ==== Sys2Proof/Machine/Doorbell.lean ====
section
/-!
DEFINITION. Doorbells (chapter 11): ringing a source (R426 to R431), pending sources (R432, R433), claims (R435 to R438),
descriptor writes (R425, R442, R443).
-/

namespace Sys2Proof.Machine

/-- The number that is never rung (R421). -/
def spurious : Nat := 0xFFF

/-- The pending bit and the REPEAT bit of a source in a tile (R432, R433). -/
def State.pendBit (s : State) (t n : Nat) : Bool := getBit (mget 0 s.regs (Adr.TIL_PEND t (n / 64))).toNat (n % 64)
def State.repBit (s : State) (t n : Nat) : Bool := getBit (mget 0 s.regs (Adr.TIL_REP t (n / 64))).toNat (n % 64)

/-- Both bits of a source written. -/
def State.setPend (s : State) (t n : Nat) (p r : Bool) : State :=
  (s.put (Adr.TIL_PEND t (n / 64)) ⟨n % 64, 1⟩ (bnat p)).put (Adr.TIL_REP t (n / 64)) ⟨n % 64, 1⟩ (bnat r)

/-- TIL_PSUM: bit w is the OR of TIL_PENDw (R432). -/
def State.psum (s : State) (t : Nat) : DWord := BitVec.ofNat 64 (maskOf 64 (fun w => mget 0 s.regs (Adr.TIL_PEND t w) != 0))

/-- The engines of a tile that MASK of a source names and that sleep in WAITI wake (R440). -/
def State.wakeEngines (s : State) (t n : Nat) : State :=
  (List.range 16).foldl (fun s e =>
    if getBit (s.get (Adr.BLK_DBDESC n) Bits.BLK_DBDESC_MASK) e && (s.eng (16 * t + e)).hold == .waiti then
      s.modEng (16 * t + e) (fun e => { e with hold := .none })
    else s) s

/-- A source becomes pending in a tile, or is rung again while pending, and wakes the tile and the sleeping engines of
MASK (R433, R440). -/
def State.makePending (s : State) (t n : Nat) : State :=
  ((s.setPend t n true (s.pendBit t n)).wake t).wakeEngines t n

/-- A ring meets its descriptor (R428). -/
def State.deliver (s : State) (n : Nat) : State :=
  let d := s.reg (Adr.BLK_DBDESC n)
  let t := fldOf d Bits.BLK_DBDESC_TILE
  if fldOf d Bits.BLK_DBDESC_EN = 0 then s.put Adr.BLK_DBSTAT Bits.BLK_DBSTAT_DISHIT 1
  else if s.sleep t = 3 ∨ s.tileFenced t then s.put Adr.BLK_DBSTAT Bits.BLK_DBSTAT_NORUN 1
  else if fldOf d Bits.BLK_DBDESC_MODE = 0 then s.makePending t n
  else (s.event t (fldOf d Bits.BLK_DBDESC_CTX) 1 n).wake t

/-- Whether a number from 0 to 1,023 may not be rung by a write (R427). -/
def State.hwRefused (s : State) : Bool := s.mode == modeBoot || s.mode == modeRecovery || s.mode == modeRun

/-- A ring reaches the doorbell unit that handles it (R426, R427, R445). -/
def State.handleRing (s : State) (r : Ring) : State :=
  let d := s.reg (Adr.BLK_DBDESC r.src)
  if r.src = spurious ∧ r.by_ ≠ .letter then s
  else match r.by_ with
    | .hw => s.deliver r.src
    | .letter =>
      if r.src < 1024 ∨ r.src = spurious ∨ fldOf d Bits.BLK_DBDESC_REMOTE = 0 then s.put Adr.BLK_DBSTAT Bits.BLK_DBSTAT_REMREF 1
      else s.deliver r.src
    | .engine _ ring =>
      if r.src < 1024 ∧ s.hwRefused then s.put Adr.BLK_DBSTAT Bits.BLK_DBSTAT_HWREF 1
      else if 1024 ≤ r.src ∧ fldOf d Bits.BLK_DBDESC_WRING < ring then s.put Adr.BLK_DBSTAT Bits.BLK_DBSTAT_RINGREF 1
      else s.deliver r.src
    | _ =>
      if r.src < 1024 ∧ s.hwRefused then s.put Adr.BLK_DBSTAT Bits.BLK_DBSTAT_HWREF 1 else s.deliver r.src

/-- Who rings, for the checks of R427. A write letter is not checked against WRING, as the host is not (DEDUCED, log
117). -/
def ringerOf (who : Initiator) (ring : Nat) : Ringer :=
  match who with
  | .engine g => .engine g.val ring
  | .host | .boot | .relay => .host
  | .debug => .debug
  | .fig _ => .figure

/-- The response of a write to BLK_DOORBELL, which waits until its ring is accepted (R429): of an engine, the host and the
debug master. -/
def ringReply (who : Initiator) (id a : Nat) : Option (Initiator × Nat × Nat) :=
  match who with
  | .engine _ | .host | .debug => some (who, id, a)
  | _ => none

/-- A write of BLK_DOORBELL, or one of TIL_DOORBELL at `a` that is passed on, puts its ring behind those that wait (R426,
R429). -/
def State.ringBlk (s : State) (who : Initiator) (ring v a : Nat) : State × Option Code :=
  let p := ringReply who s.hostNow a
  ({ s with rings := s.rings ++ [⟨v % 4096, ringerOf who ring, p⟩] }, if p.isSome then none else some .ok)

/-- A write of TIL_DOORBELL: the tile's own unit handles the ring of its own engine for its own tile; every other ring
goes to the block doorbell unit (R431). -/
def State.ringTil (s : State) (who : Initiator) (ring t v : Nat) : State × Option Code :=
  let n := v % 4096
  let own : Bool := match who with
    | .engine g => tileOf g.val == t && n != spurious && s.get (Adr.BLK_DBDESC n) Bits.BLK_DBDESC_TILE == t
    | _ => false
  if own then (s.handleRing ⟨n, ringerOf who ring, none⟩, some .ok)
  else s.ringBlk who ring v (Adr.TIL_DOORBELL t)

/-- DOORBELL_RING: the block doorbell unit accepts the oldest ring, and the write that made it is answered (R429). -/
def State.doorbellRing (s : State) : State :=
  match s.rings with
  | [] => s
  | r :: rest =>
    let s := { s with rings := rest }.handleRing r
    match r.reply with
    | some (who, id, a) => s.replyLate who id .ok a
    | none => s

/-! ### Claims (R435 to R438) -/

/-- What a claim of source `n` by engine `e` of tile `t` returns. -/
def State.claimValue (s : State) (t e n : Nat) : Nat :=
  if n ≠ spurious ∧ s.pendBit t n ∧ getBit (s.get (Adr.BLK_DBDESC n) Bits.BLK_DBDESC_MASK) e then
    bnat (s.repBit t n) * 4096 + n
  else spurious

/-- What a read of TIL_CLAIMn of tile `t` returns: an engine of the tile claims; the debug master sees what a claim by
the lowest engine of MASK would return; every other initiator reads 0xFFF. -/
def State.claimRead (s : State) (who : Initiator) (t n : Nat) : Nat :=
  match who with
  | .engine g => if tileOf g.val = t then s.claimValue t (engOf g.val) n else spurious
  | .debug =>
    match firstBelow 16 (fun e => getBit (s.get (Adr.BLK_DBDESC n) Bits.BLK_DBDESC_MASK) e) with
    | some e => s.claimValue t e n
    | none => spurious
  | _ => spurious

/-- A successful claim clears the pending bit and REPEAT (R435). -/
def State.claimed (s : State) (who : Initiator) (t n : Nat) : State :=
  match who with
  | .engine _ => if s.claimRead who t n = spurious then s else s.setPend t n false false
  | _ => s

/-! ### Descriptors -/

/-- A write of BLK_DBDESCn (R424, R425, R443). -/
def State.dbdescWrite (s : State) (n : Nat) (v : DWord) : State :=
  let t := fldOf v Bits.BLK_DBDESC_TILE
  if 12 ≤ t then s.put Adr.BLK_DBSTAT Bits.BLK_DBSTAT_DESCREF 1
  else
    let a := Adr.BLK_DBDESC n
    let ot := s.get a Bits.BLK_DBDESC_TILE
    let rep := s.repBit ot n
    let was := s.pendBit ot n
    let s := s.setReg a (BitVec.ofNat 64 (bandN v.toNat 0xFEF001FF0000FFFF))
    if !was then s
    else if fldOf v Bits.BLK_DBDESC_MODE = 1 then
      let s := s.setPend ot n false false
      if s.sleep t = 3 ∨ s.tileFenced t then s else (s.event t (fldOf v Bits.BLK_DBDESC_CTX) 1 n).wake t
    else if t = ot then s
    else (s.setPend ot n false false).setPend t n true rep

/-! ### The commands -/

/-- BLK_DOORBELL: a write of the register from any ring (R426, R446). -/
def execBlkDoorbell (who : Initiator) (v : Word) (s : State) : Out :=
  .next (s.commandLater who .all 0 0 Adr.BLK_DOORBELL
    (fun s => s.ringBlk who (s.ringOf who) v.toNat Adr.BLK_DOORBELL))

/-- TIL_DOORBELL: a write of the register from any ring (R426, R447). -/
def execTilDoorbell (who : Initiator) (t : Tile) (v : Word) (s : State) : Out :=
  .next (s.commandLater who .all t.val 0 (Adr.TIL_DOORBELL t.val)
    (fun s => s.ringTil who (s.ringOf who) t.val v.toNat))

/-- DOORBELL_RING. -/
def execDoorbellRing (s : State) : Out := .next s.doorbellRing

/-- TIL_CLAIM: a read of TIL_CLAIMn. -/
def execTilClaim (who : Initiator) (t : Tile) (src : BitVec 12) (s : State) : Out :=
  .next (s.readCommand who (Adr.TIL_CLAIM t.val src.toNat)
    (fun s => BitVec.ofNat 64 (s.claimRead who t.val src.toNat)) (fun s => s.claimed who t.val src.toNat))

/-- A write of BLK_DBDESCn; number 4,095 has no descriptor, and an access there has the wrong width (R11, R446). -/
def execDbdescWrite (who : Initiator) (src : BitVec 12) (v : DWord) (s : State) : Out :=
  .next (if src.toNat = spurious then s.command who .all 0 0 (Adr.BLK_DBDESC src.toNat) (fun s => (s, .err))
    else s.commandOk who .r0 0 (Adr.BLK_DBDESC src.toNat) (fun s => s.dbdescWrite src.toNat v))

end Sys2Proof.Machine
end

