-- ==== Sys2Proof/Machine/Commit.lean ====
section
/-!
DEFINITION. Commit groups (R38 to R48): their COMMIT registers, GO and DISCARD, the moves between shadow and active copy,
and the checks of the format pair, margin pair and route groups (R169, R604, R517).
-/

namespace Sys2Proof.Machine

/-- The COMMIT register of a group (R40). -/
def groupCommit : Group → Nat
  | .reel n => Adr.REEL_COMMIT n.val
  | .figFmt t => Adr.FIG_FMT_COMMIT t.val
  | .margin t => Adr.MRG_PAIR_COMMIT t.val
  | .route => Adr.RLY_ROUTE_COMMIT

/-- The registers of a group (R47). -/
def groupRegs : Group → List Nat
  | .reel n =>
    [Adr.REEL_PER n.val, Adr.REEL_FIRE n.val, Adr.REEL_APHASE n.val, Adr.REEL_AINC n.val] ++
      (List.range 64).map (fun p => Adr.REEL_SLOT n.val p)
  | .figFmt t => (List.range 16).map (fun i => Adr.FIG_FMT t.val i)
  | .margin t => [Adr.MRG_PAIR t.val]
  | .route => (List.range 512).map Adr.RLY_RTBLK

/-- The group that a register belongs to, by its row's unit and name's address. -/
def groupOf (a : Nat) : Option Group :=
  if h : 0x32000000 ≤ a ∧ a < 0x32008000 then some (.reel ⟨(a - 0x32000000) / 0x1000, by omega⟩)
  else if 0x33000000 ≤ a ∧ a < 0x33100000 then some .route
  else match regTile a with
    | some t =>
      if h : t < 12 then
        (if a % 0x80000 < 0x14000 then some (.figFmt ⟨t, h⟩) else some (.margin ⟨t, h⟩))
      else none
    | none => none

/-- The bits of a COMMIT register. -/
def cSeq : Fld := ⟨24, 8⟩
def cResult : Fld := ⟨6, 2⟩
def cLate : Fld := ⟨5, 1⟩
def cPending : Fld := ⟨1, 1⟩

/-- Whether a GO waits for its boundary. -/
def State.groupPending (s : State) (c : Group) : Bool := s.get (groupCommit c) cPending == 1

/-- Every shadow field moves to the active copy (R43). -/
def State.moveShadow (s : State) (c : Group) : State :=
  (groupRegs c).foldl (fun s a => s.setReg a (s.shadowReg a)) s

/-- The group takes effect (R43). -/
def State.applyGroup (s : State) (c : Group) : State :=
  let a := groupCommit c
  ((s.moveShadow c).countWrap a cSeq |>.put a cResult 1).put a cPending 0

/-- The source of "commit rejected" (R542). The manual names it per relay port and the route group has no port: the
port's number is free (log 16). -/
def State.rejectSrc (s : State) (c : Group) : Nat × State :=
  match c with
  | .reel n => (srcReel n.val 1, s)
  | .figFmt t => (srcTile t.val 1, s)
  | .margin t => (srcTile t.val 2, s)
  | .route =>
    let r := s.free
    (srcRelay (r.1.toNat % 4) 1, r.2)

/-- The group's check fails (R43). -/
def State.rejectGroup (s : State) (c : Group) : State :=
  let a := groupCommit c
  let r := s.rejectSrc c
  ((r.2.put a cResult 2).put a cPending 0).report 0 r.1

/-- The unit that owns the group is fenced (R45). -/
def State.abandonGroup (s : State) (c : Group) : State :=
  let a := groupCommit c
  if s.groupPending c then (s.put a cResult 3).put a cPending 0 else s

/-- DISCARD (R40): the active copy goes to the shadow. -/
def State.discardGroup (s : State) (c : Group) : State :=
  (groupRegs c).foldl (fun s a => s.setShadow a (s.reg a)) (s.put (groupCommit c) cPending 0)

/-! ### Checks -/

/-- The format pairs (R169). -/
def State.fmtCheck (s : State) (t : Nat) : Bool :=
  (List.range 16).all (fun i =>
    let v := s.shadowReg (Adr.FIG_FMT t i)
    fldOf v Bits.FIG_FMT_AFMT ≤ 7 && fldOf v Bits.FIG_FMT_BFMT ≤ 7 && fldOf v Bits.FIG_FMT_CFMT ≤ 7 &&
      fldOf v Bits.FIG_FMT_RND ≤ 2 && fldOf v Bits.FIG_FMT_ACCSH ≤ 47)

/-- Whether a tile is an event tile, or worn (R602). -/
def State.eventTile (s : State) (t : Nat) : Bool := s.get (Adr.MRG_TPLAN t) Bits.MRG_TPLAN_EVENT == 1
def State.worn (s : State) (t : Nat) : Bool := s.get (Adr.MRG_TSTAT t) Bits.MRG_TSTAT_WORN == 1

/-- The margin pair (R604). -/
def State.marginCheck (s : State) (t : Nat) : Bool :=
  let v := s.shadowReg (Adr.MRG_PAIR t)
  let vt := fldOf v Bits.MRG_PAIR_VT
  let n := fldOf v Bits.MRG_PAIR_N
  vt ≤ 50 && 24 ≤ n && n ≤ 48 && (!s.eventTile t || 40 ≤ n) &&
    (s.worn t || (match (s.power t).fmax[vt / 2]? with
      | some f => n ≤ f
      | none => true))

/-- The route table (R517). -/
def State.routeCheck (s : State) : Bool :=
  let own := s.get Adr.RLY_ID Bits.RLY_ID_POSTCODE
  let entry (p : Nat) : Nat := getBits (s.shadowReg (Adr.RLY_RTBLK (p / 8))).toNat (4 * (p % 8)) 4
  entry own == 4 && (List.range 512).all (fun i =>
    let v := (mget 0 s.shadow (Adr.RLY_RTBLK i)).toNat
    v == 0 || (List.range 8).all (fun k => getBits v (4 * k) 4 < 6))

/-- The boundary of a group with its check. -/
def State.groupBoundary (s : State) (c : Group) (pass : Bool) : State :=
  if pass then s.applyGroup c else s.rejectGroup c

/-- The margin pair change that a passing GO starts. In BOOT it takes effect at once (R46); a tile in Off changes
nothing and its pair takes effect at once (R605); a napping tile comes to Doze (R604). -/
def State.marginGo (s : State) (t : Tile) : State :=
  let c := Group.margin t
  if !s.marginCheck t.val then s.rejectGroup c
  else if s.mode = modeBoot ∨ s.sleep t.val = 3 then s.applyGroup c
  else
    let s := (s.put (groupCommit c) cPending 1).setPower t.val { s.power t.val with slewed := false }
    if s.sleep t.val = 2 then (s.leaveNap t.val).put (Adr.MRG_TSTAT t.val) Bits.MRG_TSTAT_SLEEP 1 else s

/-- A GO (R42, R46). The route table's boundary, the first FBCLK in which no route is being looked up, is the GO's own
cycle: a route is looked up within one command (DESIGN CHOICE, log 17). -/
def State.groupGo (s : State) (c : Group) : State :=
  if s.groupPending c then s.put (groupCommit c) cLate 1
  else match c with
    | .reel _ => if s.mode = modeBoot then s.applyGroup c else s.put (groupCommit c) cPending 1
    | .figFmt t =>
      if s.mode = modeBoot then s.groupBoundary c (s.fmtCheck t.val) else s.put (groupCommit c) cPending 1
    | .margin t => s.marginGo t
    | .route => s.groupBoundary c s.routeCheck

/-- A write of a COMMIT register (R40, R41, R42): LATE clears, then GO or DISCARD acts. -/
def State.commitWrite (s : State) (c : Group) (v : Nat) : State :=
  let s := if getBit v 5 then s.put (groupCommit c) cLate 0 else s
  if getBit v 2 then s.discardGroup c else if getBit v 0 then s.groupGo c else s

/-- A write to a register of a group: to its shadow, or ignored while a GO waits (R38, R42). -/
def State.shadowWrite (s : State) (c : Group) (r : RegRow) (a v : Nat) : State :=
  if s.groupPending c then s.put (groupCommit c) cLate 1
  else s.setShadow a (BitVec.ofNat 64 (r.written (s.shadowReg a).toNat v))

/-- COMMIT_GO: a write of GO. -/
def execCommitGo (who : Initiator) (c : Group) (s : State) : Out :=
  let p : RegPerm := match c with
    | .margin _ => .r0
    | _ => .r1
  .next (s.commandOk who p 0 (groupCommit c) (fun s => s.commitWrite c 1))

/-- COMMIT_DISCARD: a write of DISCARD. -/
def execCommitDiscard (who : Initiator) (c : Group) (s : State) : Out :=
  let p : RegPerm := match c with
    | .margin _ => .r0
    | _ => .r1
  .next (s.commandOk who p 0 (groupCommit c) (fun s => s.commitWrite c 4))

end Sys2Proof.Machine
end

