-- ==== Sys2Proof/Machine/Angle.lean ====
section
/-!
DEFINITION. The angle base (R53 to R74), system time (R75 to R77), the angle comparators (R78 to R85) and predictive wake
(R86, R87). One ANGLE_UPDATE is one FBCLK cycle of one ns; the angle bus has no delay of its own.
-/

namespace Sys2Proof.Machine

/-! ### Positions and velocities -/

/-- STEP of R58; 0 while CPR reads 0 (R54). -/
def stepOf (cpr : Nat) : Nat := if cpr = 0 then 0 else (2 ^ 32 + cpr / 2) / cpr

/-- TYPE of an encoder (R53). -/
def State.encType (s : State) (e : Nat) : Nat := s.get (Adr.ANG_CFG e) Bits.ANG_CFG_TYPE
/-- Whether an encoder is in standstill, and its last movement reverse. -/
def State.still (s : State) (e : Nat) : Bool := s.get (Adr.ANG_STAT e) Bits.ANG_STAT_STILL == 1
def State.isRev (s : State) (e : Nat) : Bool := s.get (Adr.ANG_STAT e) Bits.ANG_STAT_DIR == 1

/-- The block's standstill report (R74). -/
def State.blockStill (s : State) : Bool :=
  (List.range 4).all (fun e => !getBit (s.get Adr.ANG_CTL Bits.ANG_CTL_STILLMASK) e || s.still e)

/-- A quotient whose rounding the manual leaves open (log 18). -/
def roundOpen (num : Int) (den : Nat) : Int :=
  let q := num / (den : Int)
  if num % (den : Int) = 0 then q else if Config.velRoundUp num den then q + 1 else q

/-- A value clamped to the signed 32-bit range (R67). -/
def clampVel (v : Int) : Int := max (-(2 ^ 31)) (min v (2 ^ 31 - 1))

/-- An advance in a direction. -/
def signed (rev : Bool) (n : Int) : Int := if rev then -n else n

/-- The velocity of an encoder as it stands (R67, R68, R72), in 2^-24 angle LSB per ns. -/
def State.velNow (s : State) (e : Nat) : Int :=
  let x := s.enc e
  if s.still e then 0
  else match s.encType e with
    | 0 =>
      let one : Int := signed (s.isRev e) ((x.step : Int) * 4096)
      match x.ivals with
      | [] => 0
      | i :: _ =>
        let el := x.last.getD 0
        if i < el then clampVel (roundOpen one el)
        else
          let l := x.ivals.take (2 ^ s.get (Adr.ANG_CFG e) Bits.ANG_CFG_VAVG)
          clampVel (roundOpen (one * l.length) (max 1 (l.foldl (· + ·) 0)))
    | 1 | 2 => x.vel
    | _ => 0

/-- The 44-bit position (R58). -/
def Encoder.pos (x : Encoder) : Nat := ofSigned 44 ((x.base : Int) + x.adv.tdiv 4096)

/-- ANG_ANGLE and ANG_VEL show the position and the velocity. -/
def State.showEnc (s : State) (e : Nat) : State :=
  let a := s.setReg (Adr.ANG_ANGLE e) (BitVec.ofNat 64 ((s.enc e).pos / 4096 % 2 ^ 32))
  a.setReg (Adr.ANG_VEL e) (BitVec.ofNat 64 (ofSigned 32 (s.velNow e)))

/-- The SSI sample period in ns: PER, or the frame time plus 1 µs (R62). A frame's time is its bits at the CLK period
(DEDUCED, log 19). -/
def State.ssiPer (s : State) (e : Nat) : Nat :=
  let r := s.reg (Adr.ANG_SSI e)
  let bits := fldOf r Bits.ANG_SSI_MT + fldOf r Bits.ANG_SSI_BITS + fldOf r Bits.ANG_SSI_PAR
  max (fldOf r Bits.ANG_SSI_PER * 1000) (bits * 2 * (fldOf r Bits.ANG_SSI_DIV + 1) + 1000)

/-- How far extrapolation goes beyond the last count, sample or letter, in 2^-12 position units (R69, R70, R92, R94). -/
def State.advCap (s : State) (e : Nat) (vel : Int) : Int :=
  match s.encType e with
  | 0 => (((s.enc e).step * 4096 - 4096 : Nat) : Int)
  | 1 => (s.ssiPer e : Int) * vel.natAbs
  | 2 => (s.get Adr.ANG_BCCTL Bits.ANG_BCCTL_PER * 1000 : Nat) * (vel.natAbs : Int)
  | _ => 0

/-- The advance after one ns, short of the cap and never back (R68, R69). -/
def advanced (adv vel cap : Int) : Int :=
  if 0 ≤ vel then max adv (min (adv + vel) cap) else min adv (max (adv + vel) (-cap))

/-! ### Counts and indices -/

/-- A count (R58, R67, R69, R72, R73). -/
def State.countStep (s : State) (e : Nat) (rev : Bool) : State :=
  let x := s.enc e
  let st := Adr.ANG_STAT e
  let still := s.still e
  let same := x.last.isSome && s.isRev e == rev
  let limit := s.get (Adr.ANG_STILLT e) Bits.ANG_STILLT_STILLT * 16000
  let leave := still && same && (limit == 0 || x.last.getD 0 ≤ limit)
  let ival := max 1 (x.last.getD 0)
  let ivals := if !same then [] else if leave then [ival] else if still then [] else (ival :: x.ivals).take 8
  let step := stepOf (s.get (Adr.ANG_CPR e) Bits.ANG_CPR_CPR)
  let base := ofSigned 44 ((x.base : Int) + signed rev step)
  let n := (s.reg (Adr.ANG_COUNT e)).toNat
  let s := s.setEnc e { x with base := base, adv := 0, step := step, last := some 0, ivals := ivals }
  let s := s.setReg (Adr.ANG_COUNT e) (BitVec.ofNat 64 (ofSigned 32 ((n : Int) + signed rev 1)))
  let s := s.put st Bits.ANG_STAT_DIR (bnat rev)
  (if leave then s.put st Bits.ANG_STAT_STILL 0 else s).showEnc e

/-- The order of (A, B) in forward motion (R58). -/
def quadPhase (a b : Bool) : Nat := if a then (if b then 2 else 1) else (if b then 3 else 0)

/-- The index condition (R59). -/
def State.indexCond (s : State) (e : Nat) (x : Encoder) : Bool :=
  x.z && (s.get (Adr.ANG_CFG e) Bits.ANG_CFG_ZQUAL == 0 || (x.a && x.b))

/-- The smallest change of the position that makes the fraction `f`; of two halves of a revolution the negative one
(R59). -/
def indexChange (pos f : Nat) : Int := (((f : Int) - (pos % 2 ^ 32 : Nat) + 2 ^ 31) % 2 ^ 32) - 2 ^ 31

/-- A change in counts, halves toward plus infinity, clamped (R59). -/
def zerrOf (d : Int) (step : Nat) : Int :=
  max (-32768) (min ((2 * d + (step : Int)) / (2 * (step : Int))) 32767)

/-- An index is accepted (R59 to R61). With STEP 0 the quotient ZERR is open (log 18). -/
def State.indexAccept (s : State) (e : Nat) : State :=
  let st := Adr.ANG_STAT e
  let s := (s.put st Bits.ANG_STAT_HOMED 1).ringHw e
  if s.get (Adr.ANG_CFG e) Bits.ANG_CFG_ZEN = 0 then s
  else
    let x := s.enc e
    let d := indexChange x.pos (s.get (Adr.ANG_ZOFF e) Bits.ANG_ZOFF_ZOFF * 4096)
    let step := stepOf (s.get (Adr.ANG_CPR e) Bits.ANG_CPR_CPR)
    let s := s.setEnc e { x with base := ofSigned 44 ((x.base : Int) + d) }
    let z := if step = 0 then (let r := s.free; (toSigned 16 r.1.toNat, r.2)) else (zerrOf d step, s)
    let s := z.2.put (Adr.ANG_ZERR e) Bits.ANG_ZERR_ZERR (ofSigned 16 z.1)
    let s := if s.get (Adr.ANG_ZERR e) Bits.ANG_ZERR_ZTOL < z.1.natAbs then
        s.raiseFlag st 5 0x4031 (BitVec.ofNat 32 e) else s
    s.showEnc e

/-- The index condition of a quadrature encoder is looked at: an index is accepted when it goes from false to true
(R59). Of another TYPE the inputs are ignored (R53). -/
def State.indexLook (s : State) (e : Nat) : State :=
  let x := s.enc e
  let c := s.indexCond e x
  if s.encType e ≠ 0 ∨ c = x.zcond then s
  else
    let s' := s.setEnc e { x with zcond := c }
    if c then s'.indexAccept e else s'

/-- Accepted levels of A, B and Z arrive at a quadrature encoder: a count or QERR, then the index condition (R56, R58,
R59). Whether a count was made, and the state. -/
def State.levels (s : State) (e : Nat) (a b z : Bool) : Bool × State :=
  if s.encType e ≠ 0 then (false, s)
  else
    let x := s.enc e
    let old := quadPhase x.a x.b
    let new := quadPhase a b
    let s := s.setEnc e { x with a := a, b := b, z := z }
    let inv := s.get (Adr.ANG_CFG e) Bits.ANG_CFG_INV == 1
    if a ≠ x.a ∧ b ≠ x.b then
      (false, (s.raiseFlag (Adr.ANG_STAT e) 4 0x4030 (BitVec.ofNat 32 e)).indexLook e)
    else if old = new then (false, s.indexLook e)
    else (true, (s.countStep e ((new != (old + 1) % 4) != inv)).indexLook e)

/-- A write of ANG_CPR: the first value since power-on reset scales the counts since power-up (R54). -/
def State.cprWrite (s : State) (e : Nat) (new : Nat) : State :=
  let x := s.enc e
  let s := s.setReg (Adr.ANG_CPR e) (BitVec.ofNat 64 new)
  if x.cprSet ∨ new = 0 then s
  else if s.encType e ≠ 0 ∨ s.get (Adr.ANG_STAT e) Bits.ANG_STAT_HOMED = 1 then s.setEnc e { x with cprSet := true }
  else
    let step := stepOf new
    let n := toSigned 32 (s.reg (Adr.ANG_COUNT e)).toNat
    (s.setEnc e { x with cprSet := true, base := ofSigned 44 (n * step), adv := 0, step := step }).showEnc e

/-- An encoder whose TYPE is 3 reads STILL 1 (R53). -/
def State.typeOff (s : State) (e : Nat) : State :=
  if s.encType e = 3 ∧ !s.still e then (s.put (Adr.ANG_STAT e) Bits.ANG_STAT_STILL 1).showEnc e else s

/-- STANDSTILL_ENTRY: STILLT has passed without a count or a change (R72). -/
def State.standstillEntry (s : State) (e : Nat) : State :=
  let n := s.get (Adr.ANG_STILLT e) Bits.ANG_STILLT_STILLT * 16000
  if n = 0 ∨ s.still e ∨ s.encType e = 3 then s
  else
    let x := s.enc e
    let s := s.setEnc e { x with last := x.last.map (fun l => max l (n + 1)) }
    (s.put (Adr.ANG_STAT e) Bits.ANG_STAT_STILL 1).showEnc e

/-! ### SSI (R62 to R64, R67, R70) -/

/-- Gray code of `n` bits decoded. -/
def grayDecode : (n : Nat) → Nat → Nat
  | 0, _ => 0
  | n + 1, v =>
    let r := grayDecode n (v / 2)
    2 * r + (bnat ((v % 2 == 1) != (r % 2 == 1)))

/-- SSI_FRAME_START: the first falling CLK edge of a frame. -/
def State.ssiFrameStart (s : State) (e : Nat) (dataHigh : Bool) : State :=
  if s.encType e = 1 then s.setEnc e { s.enc e with frame := some (dataHigh, 0) } else s

/-- The position of a sample: the single-turn value at the top of the fraction, the multi-turn value as revolutions, or
the revolutions that the angle base counts when MT is 0 (R63). -/
def samplePos (bits mt v old : Nat) (first : Bool) : Nat :=
  let f := v % 2 ^ bits * 2 ^ (32 - bits)
  if mt ≠ 0 then v / 2 ^ bits % 2 ^ mt * 2 ^ 32 + f
  else if first then old / 2 ^ 32 * 2 ^ 32 + f
  else
    let d : Int := (f : Int) - (old % 2 ^ 32 : Nat)
    let d := if 2 ^ 31 < d then d - 2 ^ 32 else if d < -(2 ^ 31) then d + 2 ^ 32 else d
    ofSigned 44 ((old : Int) + d)

/-- The signed change between two samples (R67), over the range that the frame holds. -/
def sampleChange (mt new old : Nat) : Int :=
  let w := if mt = 0 then 44 else 32 + mt
  toSigned w (ofSigned w ((new : Int) - old))

/-- A valid sample sets the angle (R63, R64, R67, R70): the sample holds at the frame's first CLK edge, and the angle
stands where the velocity has taken it since. The first sample has no predecessor, and its velocity is 0; a change of
more than one single-turn step ends standstill, in either direction and after any time (DESIGN CHOICE, log 109). -/
def State.ssiValid (s : State) (e : Nat) (v since : Nat) : State :=
  let r := s.reg (Adr.ANG_SSI e)
  let mt := fldOf r Bits.ANG_SSI_MT
  let bits := fldOf r Bits.ANG_SSI_BITS
  let x := s.enc e
  let new := samplePos bits mt v x.base x.sample.isNone
  let d := sampleChange mt new x.base
  let st := Adr.ANG_STAT e
  let vel : Int := match x.sample with
    | some t => clampVel (roundOpen (d * 4096) (max 1 (t - since)))
    | none => 0
  let moved := x.sample.isSome && 2 ^ (32 - bits) < d.natAbs
  let s := s.put st Bits.ANG_STAT_HOMED 1
  let s := if x.sample.isSome ∧ d ≠ 0 then s.put st Bits.ANG_STAT_DIR (bnat (d < 0)) else s
  let s := if moved then s.put st Bits.ANG_STAT_STILL 0 else s
  let s := s.setReg (Adr.ANG_COUNT e) (BitVec.ofNat 64 (((s.reg (Adr.ANG_COUNT e)).toNat + 1) % 2 ^ 32))
  let cap := (s.ssiPer e : Int) * vel.natAbs
  let adv := if s.still e then 0 else max (-cap) (min (vel * since) cap)
  (s.setEnc e { x with base := new, adv := adv, vel := vel, sample := some since, frame := none }).showEnc e

/-- SSI_SAMPLE: the data bits of a completed frame stand in the low bits, the last bit lowest. -/
def State.ssiSample (s : State) (e : Nat) (w : Nat) : State :=
  let x := s.enc e
  match x.frame with
  | none => s
  | some (high, since) =>
    if s.encType e ≠ 1 then s
    else
      let r := s.reg (Adr.ANG_SSI e)
      let par := fldOf r Bits.ANG_SSI_PAR
      let n := fldOf r Bits.ANG_SSI_MT + fldOf r Bits.ANG_SSI_BITS
      let frame := w % 2 ^ (n + par)
      let odd := popcWord (BitVec.ofNat 32 frame) + popcWord (BitVec.ofNat 32 (frame / 2 ^ 32))
      if !high ∨ (par = 1 ∧ odd % 2 = 1) then
        (s.setEnc e { x with frame := none }).raiseFlag (Adr.ANG_STAT e) 6 0x4032 (BitVec.ofNat 32 e)
      else
        let d := frame / 2 ^ par
        s.ssiValid e (if fldOf r Bits.ANG_SSI_GRAY = 1 then grayDecode n d else d) since

/-! ### System time (R75 to R77, R93) -/

/-- A follower's TRIM for the error that is left (R93). -/
def slewTrim (err : Int) : Int := if 2 < err then -65536 else if err < -2 then 65536 else 0

/-- Whether the block follows another's time. -/
def State.follower (s : State) : Bool := s.get Adr.ANG_BCCTL Bits.ANG_BCCTL_ROLE == 2

/-- SYSTEM_TIME_TICK's effect on time; a follower slews until its error is within 2 ns. Before its first letter the error
is the one left from an earlier time as a follower, or 0 (DESIGN CHOICE, log 108). -/
def State.timeTick (s : State) : State :=
  let i := s.tickInc
  let trim := (BitVec.setWidth 32 (s.reg Adr.ANG_TRIM)).toInt
  let err := s.clock.err + trim / 65536
  let s := s.setReg Adr.ANG_TIME (s.reg Adr.ANG_TIME + BitVec.ofNat 64 i.1)
  if s.follower ∧ !s.clock.lost then
    { s.setReg Adr.ANG_TRIM (BitVec.ofNat 64 (ofSigned 32 (slewTrim err))) with
      clock := { s.clock with since := 0, frac := i.2, err := err } }
  else { s with clock := { s.clock with since := 0, frac := i.2 } }

/-- A write of ANG_TIMESET (R77). -/
def State.timeset (s : State) (v : DWord) : State :=
  if s.mode = modeBoot ∨ s.mode = modeCommission ∨ s.mode = modeTest then
    s.setTime v
  else s

/-- A write of ANG_TRIM (R95): its range, and not while hardware sets it. -/
def State.trimWrite (s : State) (v : DWord) : State :=
  let t := (BitVec.setWidth 32 v).toInt
  if s.follower ∨ t < -65536 ∨ 65536 < t then s else s.setTrim (BitVec.ofNat 64 (v.toNat % 2 ^ 32))

/-! ### Comparators (R78 to R85) -/

/-- Whether an angle is at or past a value (R65, R78). -/
def atOrPast (perRev : Bool) (a v : Nat) : Bool :=
  if perRev then (a + 2 ^ 32 - v) % 2 ^ 20 < 2 ^ 19 else (a + 2 ^ 32 - v) % 2 ^ 32 < 2 ^ 31

/-- A comparator's encoder, and the angle of an encoder. -/
def State.cmpSrc (s : State) (t k : Nat) : Nat := fldOf (mget 0 s.regs (Adr.ANG_CMP_CTL t k)) Bits.ANG_CMP_CTL_SRC
def State.angle (s : State) (e : Nat) : Nat := (mget 0 s.regs (Adr.ANG_ANGLE e)).toNat

/-- The comparator is rebased to the bus angle of its source (R82, R83). -/
def State.rebase (s : State) (t k : Nat) : State :=
  { s with rebased := mset s.rebased (16 * t + k) (s.angle (s.cmpSrc t k)) }

/-- The crossing that a comparator makes from `a0` to `a1`, and whether it is forward, when its DIR allows it (R78,
R79). -/
def crossing (ctl : DWord) (v a0 a1 : Nat) : Option Bool :=
  let rev := fldOf ctl Bits.ANG_CMP_CTL_MODE == 1
  let p0 := atOrPast rev a0 v
  let p1 := atOrPast rev a1 v
  let dir := fldOf ctl Bits.ANG_CMP_CTL_DIR
  if p0 = p1 then none else if dir = 2 ∨ (dir = 0) = (p1 = true) then some p1 else none

/-- The periodic advance (R80): VAL, SKIP and SKIPS. -/
def State.cmpAdvance (s : State) (t k a1 : Nat) : State :=
  let v := (s.reg (Adr.ANG_CMP_VAL t k)).toNat
  let inc := (s.reg (Adr.ANG_CMP_INC t k)).toNat
  if inc = 0 then s
  else
    let m := (a1 + 2 ^ 32 - v) % 2 ^ 32 / inc + 1
    let st := Adr.ANG_CMP_STAT t k
    let s := s.setReg (Adr.ANG_CMP_VAL t k) (BitVec.ofNat 64 ((v + m * inc) % 2 ^ 32))
    if 1 < m then
      (s.put st Bits.ANG_CMP_STAT_SKIP 1).put st Bits.ANG_CMP_STAT_SKIPS
        (min 0xFFFF (s.get st Bits.ANG_CMP_STAT_SKIPS + (m - 1)))
    else s

/-- A comparator fires: FIRED, OVER, the periodic advance, and the end of a predictive wake of its own (R79, R80,
R584). Its ACTION follows. -/
def State.cmpFire (s : State) (t k a1 : Nat) (fwd : Bool) : State :=
  let st := Adr.ANG_CMP_STAT t k
  let s := if s.get st Bits.ANG_CMP_STAT_FIRED = 1 then s.put st Bits.ANG_CMP_STAT_OVER 1
    else s.put st Bits.ANG_CMP_STAT_FIRED 1
  let s := if (s.power t).pwake = some k then s.setPower t { s.power t with pwake := none } else s
  if fwd ∧ s.get (Adr.ANG_CMP_CTL t k) Bits.ANG_CMP_CTL_MODE = 2 then s.cmpAdvance t k a1 else s

/-- A comparator's ACTION (R79). -/
def State.cmpAct (s : State) (t k : Nat) : State :=
  let ctl := s.reg (Adr.ANG_CMP_CTL t k)
  if fldOf ctl Bits.ANG_CMP_CTL_ACTION = 0 then s.ringHw (16 + 16 * t + k)
  else (s.event t (fldOf ctl Bits.ANG_CMP_CTL_CTX) 2 k).wake t

/-- The comparators of a tile that fire in this cycle, with their directions. -/
def State.cmpFires (s : State) (t : Nat) : List (Nat × Bool) :=
  (List.range 16).filterMap (fun k =>
    let ctl := mget 0 s.regs (Adr.ANG_CMP_CTL t k)
    if fldOf ctl Bits.ANG_CMP_CTL_EN = 0 then none
    else
      let e := fldOf ctl Bits.ANG_CMP_CTL_SRC
      let a0 := mget (mget 0 s.bus e) s.rebased (16 * t + k)
      (crossing ctl (mget 0 s.regs (Adr.ANG_CMP_VAL t k)).toNat a0 (s.angle e)).map (fun f => (k, f)))

/-- The comparators of a tile are evaluated. Where several fire, the order of their actions is open (R84): ascending or
descending by a free value (log 21). -/
def State.cmpTile (s : State) (t : Nat) : State :=
  if s.sleep t = 3 ∨ s.tileFenced t then s
  else
    let fires := s.cmpFires t
    let s := fires.foldl (fun s f => s.cmpFire t f.1 (s.angle (s.cmpSrc t f.1)) f.2) s
    let order := if 1 < fires.length then
        (let r := s.free; (if bitOf r.1 0 then fires.reverse else fires, r.2)) else (fires, s)
    order.1.foldl (fun s f => s.cmpAct t f.1) order.2

/-- Whether a comparator's predictive wake is due (R86). -/
def State.pwakeDue (s : State) (t k : Nat) : Bool :=
  let ctl := mget 0 s.regs (Adr.ANG_CMP_CTL t k)
  if fldOf ctl Bits.ANG_CMP_CTL_EN == 0 || fldOf ctl Bits.ANG_CMP_CTL_PWAKE == 0 then false
  else
    let e := fldOf ctl Bits.ANG_CMP_CTL_SRC
    let v := (mget 0 s.regs (Adr.ANG_CMP_VAL t k)).toNat
    let a := s.angle e
    let rev := s.isRev e
    let dir := fldOf ctl Bits.ANG_CMP_CTL_DIR
    let w := if fldOf ctl Bits.ANG_CMP_CTL_MODE = 1 then 20 else 32
    let d := if rev then (a + 2 ^ 32 - v) % 2 ^ w else (v + 2 ^ 32 - a) % 2 ^ w
    !s.still e && (dir == 2 || (dir == 1) == rev) &&
      d * 2 ^ 24 ≤ (s.velNow e).natAbs * s.get (Adr.ANG_WAKE t) Bits.ANG_WAKE_WAKE_LEAD

/-- Predictive wake of a tile that dozes or naps (R86, R87). Of several comparators that are due in one cycle the lowest
is the waking one (DESIGN CHOICE, log 110). -/
def State.predictiveWake (s : State) (t : Nat) : State :=
  if (s.sleep t ≠ 1 ∧ s.sleep t ≠ 2) ∨ s.wakes.contains t then s
  else match firstBelow 16 (fun k => s.pwakeDue t k) with
    | some k =>
      let s := (s.wake t).setPower t { s.power t with pwake := some k }
      s.countOpen (Adr.ANG_PWCNT t) Bits.ANG_PWCNT_WOKE
    | none => s

/-- PREDICTIVE_WAKE_TIMEOUT: 2 × WAKE_LEAD has passed since the wake, and the comparator has not fired (R87). -/
def State.pwakeTimeout (s : State) (t : Nat) : State :=
  match (s.power t).pwake with
  | some _ =>
    (s.setPower t { s.power t with pwake := none }).countOpen (Adr.ANG_PWCNT t) Bits.ANG_PWCNT_FALSE
  | none => s

/-- An encoder's part of one FBCLK cycle (R68 to R70, R53). -/
def State.encTick (s : State) (e : Nat) : State :=
  let x := s.enc e
  let tick (o : Option Nat) : Option Nat := o.map (· + 1)
  let x := { x with last := tick x.last, sample := tick x.sample, frame := x.frame.map (fun p => (p.1, p.2 + 1)) }
  let s := (s.setEnc e x).typeOff e
  let v := s.velNow e
  let s := s.setEnc e { x with adv := if s.still e then x.adv else advanced x.adv v (s.advCap e v) }
  (s.showEnc e).indexLook e

/-- ANGLE_UPDATE: one FBCLK cycle. FBCLK does not run in Standby. -/
def State.angleUpdate (s : State) : State :=
  if s.standby then s
  else
    let s := { s with clock := { s.clock with since := s.clock.since + 1 } }
    let s := (List.range 4).foldl State.encTick s
    let s := (List.range 12).foldl (fun s t => (s.cmpTile t).predictiveWake t) s
    { s with bus := (List.range 4).map (fun e => (e, s.angle e)), rebased := [], fbclk := s.fbclk + 1, hwFenced := [] }

/-! ### The commands -/

/-- SSI_FRAME_START. -/
def execSsiFrameStart (e : Enc) (dataHigh : Bool) (s : State) : Out := .next (s.ssiFrameStart e.val dataHigh)

/-- SSI_SAMPLE. -/
def execSsiSample (e : Enc) (bits : BitVec 37) (s : State) : Out := .next (s.ssiSample e.val bits.toNat)

/-- STANDSTILL_ENTRY. -/
def execStandstillEntry (e : Enc) (s : State) : Out := .next (s.standstillEntry e.val)

/-- PREDICTIVE_WAKE_TIMEOUT. -/
def execPredictiveWakeTimeout (t : Tile) (s : State) : Out := .next (s.pwakeTimeout t.val)

/-- The value that a write under a row's access codes and limits leaves. -/
def State.writtenAt (s : State) (a v : Nat) : Nat :=
  match regRef a with
  | some r => r.row.written (s.reg a).toNat v
  | none => 0

/-- ANG_CPR_WRITE. -/
def execAngCprWrite (who : Initiator) (e : Enc) (v : Word) (s : State) : Out :=
  .next (s.commandOk who .r0 0 (Adr.ANG_CPR e.val)
    (fun s => s.cprWrite e.val (s.writtenAt (Adr.ANG_CPR e.val) v.toNat)))

/-- A register of a comparator: CTL, VAL, INC, STAT. -/
def cmpReg (t k r : Nat) : Nat := Adr.ANG_CMP_CTL t k + 4 * r

/-- A write of a comparator's register: CTL, VAL and INC rebase it (R83). -/
def State.cmpWrite (s : State) (t k r v : Nat) : State :=
  let a := cmpReg t k r
  let s := s.setReg a (BitVec.ofNat 64 (s.writtenAt a v))
  if r < 3 then s.rebase t k else s

/-- ANG_CMP_WRITE. -/
def execAngCmpWrite (who : Initiator) (t : Tile) (k : Fin 16) (r : Fin 4) (v : Word) (s : State) : Out :=
  .next (s.commandOk who .r1 t.val (cmpReg t.val k.val r.val) (fun s => s.cmpWrite t.val k.val r.val v.toNat))

/-- ANG_TIMESET: a write of the register (R77). -/
def execAngTimeset (who : Initiator) (v : DWord) (s : State) : Out :=
  .next (s.commandOk who .r0 0 Adr.ANG_TIMESET (fun s => s.timeset v))

end Sys2Proof.Machine
end

