-- ==== Sys2Proof/Machine/FigArith.lean ====
section
/-!
DEFINITION. The figure unit's microword (R106 to R122) and lane arithmetic (R160 to R163): formats, MAP, MAC, conversion
at EMIT, PACK. A raw value is an element's bits, as a natural number; an extended one is its 48-bit value.
-/

namespace Sys2Proof.Machine

/-! ### Fields of a microword -/

/-- Bit and field of a microword. -/
def mwBit (w : MicroWord) (i : Nat) : Bool := getBit w.toNat i
def mwFld (w : MicroWord) (hi lo : Nat) : Nat := getBits w.toNat lo (hi + 1 - lo)

/-- Fields by name. -/
def mwAop (w : MicroWord) : Nat := mwFld w 99 97
def mwBop (w : MicroWord) : Nat := mwFld w 94 92
def mwOp (w : MicroWord) : Nat := mwFld w 79 75
def mwEmit (w : MicroWord) : Bool := mwBit w 66
def mwPair8 (w : MicroWord) : Bool := mwBit w 58
def mwPack (w : MicroWord) : Nat := mwFld w 47 45
def mwPs (w : MicroWord) : Nat := mwFld w 40 38
def mwCen (w : MicroWord) : Bool := mwBit w 27
def mwAcc48 (w : MicroWord) : Bool := mwBit w 24
def mwSeq (w : MicroWord) : Nat := mwFld w 7 5
/-- DISP of SEQ, signed (R122). -/
def mwDisp (w : MicroWord) : Int := toSigned 5 (mwFld w 4 0)

/-- Whether the step has an entry: a LOAD field with AEN, BEN, AK or BK (R100). -/
def mwEntry (w : MicroWord) : Bool := mwBit w 127 || mwBit w 123 || mwBit w 122 || mwBit w 118

/-- Whether the result is packed (R117). -/
def mwPacked (w : MicroWord) : Bool := 1 ≤ mwPack w && mwPack w ≤ 3

/-- What a figure's fields are judged against: DOT, the formats of A and B, and whether C is in UNIT or REEL mode. -/
structure FieldEnv where
  dot : Bool
  afmt : Nat
  bfmt : Nat
  packOk : Bool

/-- The LOAD field is invalid (R107, R108). -/
def badLoad (w : MicroWord) : Bool :=
  mwFld w 117 100 != 0 || (mwBit w 127 && mwBit w 123) || (mwBit w 122 && mwBit w 118)

/-- The MAP field is invalid (R110, R111). -/
def badMap (w : MicroWord) : Bool := mwBit w 80 || 6 ≤ mwAop w || 6 ≤ mwBop w

/-- The MAC field is invalid (R100, R112, R113, R115). -/
def badMac (x : FieldEnv) (w : MicroWord) : Bool :=
  let op := mwOp w
  mwFld w 57 48 != 0 || 21 ≤ op || 48 ≤ mwFld w 65 60 || (op != 0 && !mwEntry w) ||
    (mwPair8 w && (!x.dot || 2 ≤ x.afmt || 2 ≤ x.bfmt)) ||
    (if x.dot then !(op == 0 || op == 8 || (op == 16 && mwBit w 59)) else op == 8)

/-- The PACK field is invalid (R116, R118). -/
def badPack (x : FieldEnv) (w : MicroWord) : Bool :=
  mwFld w 34 28 != 0 || 5 ≤ mwPack w || (x.dot && mwPack w == 4)

/-- The STORE field is invalid (R120, R121). -/
def badStore (x : FieldEnv) (w : MicroWord) : Bool :=
  mwFld w 23 8 != 0 || (mwPacked w && mwAcc48 w) || (mwPacked w && mwCen w && !x.packOk)

/-- The rank of the earliest stage with an invalid field: 0 LOAD, 5 MAP, 6 MAC, 7 PACK, 8 STORE (R107, R155). -/
def badField (x : FieldEnv) (w : MicroWord) : Option Nat :=
  if badLoad w then some 0 else if badMap w then some 5 else if badMac x w then some 6
  else if badPack x w then some 7 else if badStore x w then some 8 else none

/-! ### Formats (R160) -/

/-- Bytes of a format, and whether it is signed. -/
def fmtBytes (f : Nat) : Nat := if f < 2 then 1 else if f < 5 then 2 else 4
def fmtSigned (f : Nat) : Bool := f == 1 || f == 3 || f == 4 || f == 6 || f == 7

/-- A raw value extended to 48 bits. -/
def fmtVal (f raw : Nat) : Int :=
  if fmtSigned f then toSigned (8 * fmtBytes f) raw else (raw % 2 ^ (8 * fmtBytes f) : Nat)

/-- The range of a format. -/
def fmtMin (f : Nat) : Int := if fmtSigned f then -2 ^ (8 * fmtBytes f - 1) else 0
def fmtMax (f : Nat) : Int := if fmtSigned f then 2 ^ (8 * fmtBytes f - 1) - 1 else 2 ^ (8 * fmtBytes f) - 1

/-- SAT, UNF and CARRY as one number (R142). -/
def flSat : Nat := 1
def flUnf : Nat := 2
def flCarry : Nat := 4

/-! ### MAP (R111) -/

/-- A map operation on a raw value with its lookup table; the result is raw, of 16 bits, or the operand itself. -/
def mapOp (op shr : Nat) (lut : Nat → Nat) (raw : Nat) : Nat :=
  let x := raw / 2 ^ shr
  match op with
  | 1 => lut (x % 256) % 65536
  | 2 => maskOf 16 (fun j => getBit x (lut j % 16))
  | 3 => maskOf 16 (fun j => getBit x (15 - j))
  | 4 => maskOf 16 (fun j => getBit x (j / 2))
  | 5 => maskOf 16 (fun j => getBit x (j / 4))
  | _ => raw

/-! ### MAC (R113, R114, R161, R162) -/

/-- A value clamped to the 48-bit range, and SAT. -/
def clamp48 (v : Int) : Int × Nat :=
  if v < -2 ^ 47 then (-2 ^ 47, flSat) else if 2 ^ 47 ≤ v then (2 ^ 47 - 1, flSat) else (v, 0)

/-- A product as it enters the sum, and UNF. -/
def figProd (afmt bfmt : Nat) (a b : Int) : Int × Nat :=
  let p := a * b
  if afmt = 7 ∨ bfmt = 7 then
    let q := p / 65536
    (q, if p ≠ 0 ∧ q = 0 then flUnf else 0)
  else (p, 0)

/-- The sum of the products of the taps, and UNF. -/
def dotSum (afmt bfmt : Nat) : List Int → List Int → Int × Nat
  | a :: as, b :: bs =>
    let p := figProd afmt bfmt a b
    let r := dotSum afmt bfmt as bs
    (p.1 + r.1, p.2 ||| r.2)
  | _, _ => (0, 0)

/-- A bitwise operation on 48-bit patterns. -/
def bits48 (f : Nat → Nat → Nat) (a b : Int) : Int := toSigned 48 (f (ofSigned 48 a) (ofSigned 48 b))

/-- An operation of an element in element mode: the accumulator after it, and the flags. NOP and CMP leave it. -/
def macLane (op shamt afmt bfmt : Nat) (pbit : Bool) (a b acc : Int) : Int × Nat :=
  let fit (x : Int) (f : Nat) : Int × Nat := ((clamp48 x).1, (clamp48 x).2 ||| f)
  match op with
  | 1 => fit a 0
  | 2 => fit b 0
  | 3 => fit (a + b) 0
  | 4 => fit (a - b) 0
  | 5 => fit (figProd afmt bfmt a b).1 (figProd afmt bfmt a b).2
  | 6 => fit (acc + (figProd afmt bfmt a b).1) (figProd afmt bfmt a b).2
  | 7 => fit (acc - (figProd afmt bfmt a b).1) (figProd afmt bfmt a b).2
  | 9 => fit (acc + a) 0
  | 10 => fit (min a b) 0
  | 11 => fit (max a b) 0
  | 12 => fit (if a < 0 then -a else a) 0
  | 13 => fit (a * 2 ^ shamt) 0
  | 14 => (a / 2 ^ shamt, if a ≠ 0 ∧ a / 2 ^ shamt = 0 then flUnf else 0)
  | 15 => (if pbit then a else b, 0)
  | 17 => (bits48 (· &&& ·) a b, 0)
  | 18 => (bits48 (· ||| ·) a b, 0)
  | 19 => (bits48 (· ^^^ ·) a b, 0)
  | 20 => fit (if a < b then b - a else a - b) 0
  | _ => (acc, 0)

/-- The outcome of CMP (R114). -/
def cmpLane (cond : Nat) (x b : Int) : Bool :=
  match cond with
  | 0 => x == b
  | 1 => x != b
  | 2 => x < b
  | 3 => x ≤ b
  | 4 => b < x
  | 5 => b ≤ x
  | 6 => ofSigned 48 x < ofSigned 48 b
  | _ => ofSigned 48 b ≤ ofSigned 48 x

/-! ### Conversion at EMIT (R163) -/

/-- `acc / 2 ^ sh` rounded: 0 toward −∞, 1 half upward, 2 half to even. -/
def roundShift (rnd sh : Nat) (acc : Int) : Int :=
  let q := acc / 2 ^ sh
  let r := acc % 2 ^ sh
  if sh = 0 then q
  else if rnd = 1 then (if 2 ^ (sh - 1) ≤ r then q + 1 else q)
  else if rnd = 2 then (if 2 ^ (sh - 1) < r ∨ (r = 2 ^ (sh - 1) ∧ q % 2 = 1) then q + 1 else q)
  else q

/-- An element's value in CFMT as raw bits, and its flags, under a format pair. -/
def emitVal (fmt : DWord) (acc : Int) : Nat × Nat :=
  let c := fldOf fmt Bits.FIG_FMT_CFMT
  let v := roundShift (fldOf fmt Bits.FIG_FMT_RND) (fldOf fmt Bits.FIG_FMT_ACCSH) acc
  let u := if acc ≠ 0 ∧ v = 0 then flUnf else 0
  let n := 8 * fmtBytes c
  if fmtMin c ≤ v ∧ v ≤ fmtMax c then (ofSigned n v, u)
  else if fldOf fmt Bits.FIG_FMT_WRAPO = 1 then (ofSigned n v, u ||| flCarry)
  else (ofSigned n (if v < fmtMin c then fmtMin c else fmtMax c), u ||| flSat)

/-! ### PACK (R117, R118) -/

/-- Whether an element differs under XMASK, and what it adds to MISCNT. -/
def cmpxOf (xmask : Nat) (xb : Bool) (r b : Int) : Bool × Nat :=
  let d := ofSigned 48 r ^^^ ofSigned 48 b
  let m := d &&& xmask
  let dif := m != 0 || d / 65536 != 0
  (dif, if xb then (List.range 16).foldl (fun c i => c + m / 2 ^ i % 2) 0 else bnat dif)

/-- The packed bits of a value and their number; 0 wide when it passes unpacked. PACKN wider than an 8-bit CFMT packs 0 above
the value (DESIGN CHOICE, log 125). -/
def packOf (op nm1 raw : Nat) (pbit : Bool) : Nat × Nat :=
  match op with
  | 1 => (raw % 2, 1)
  | 2 => (raw % 2 ^ (nm1 + 1), nm1 + 1)
  | 3 => (bnat pbit, 1)
  | _ => (0, 0)

end Sys2Proof.Machine
end

