-- ==== Sys2Proof/Machine/FigData.lean ====
section
/-!
DEFINITION. The figure unit's descriptor (R125 to R133), its generators and their accesses (R109, R127 to R130, R151 to
R153), and its predicates (R147 to R149).
-/

namespace Sys2Proof.Machine

/-! ### Causes (R154) -/

def figBus : Nat := 1
def figProt : Nat := 2
def figRange : Nat := 3
def figAlign : Nat := 4
def figEcc : Nat := 5
def figStale : Nat := 6
def figIndex : Nat := 7
def figMicro : Nat := 8
def figDesc : Nat := 9
def figAbortCause : Nat := 10

/-! ### The descriptor -/

/-- A word of the descriptor, by its offset. -/
def FigRun.word (r : FigRun) (off : Nat) : Nat := (r.desc.getD (off / 4) 0).toNat

/-- Fields of CTL (R126). -/
def FigRun.dot (r : FigRun) : Bool := getBit (r.word 0) 27
def FigRun.mskEn (r : FigRun) : Bool := getBit (r.word 0) 26
def FigRun.rep (r : FigRun) : Nat := if r.word 0x30 / 65536 = 0 then 1 else r.word 0x30 / 65536
def FigRun.xmask (r : FigRun) : Nat := r.word 0x30 % 65536

/-- Formats of the captured pair. -/
def FigRun.afmt (r : FigRun) : Nat := fldOf r.job.fmt Bits.FIG_FMT_AFMT
def FigRun.bfmt (r : FigRun) : Nat := fldOf r.job.fmt Bits.FIG_FMT_BFMT
def FigRun.cfmt (r : FigRun) : Nat := fldOf r.job.fmt Bits.FIG_FMT_CFMT

/-- A generator as its descriptor words give it (R127). -/
structure GenCfg where
  base : Nat
  gen : Nat
  idx : Nat
  lim : Nat
  fmt : Nat

def GenCfg.mode (c : GenCfg) : Nat := getBits c.gen 29 3
def GenCfg.refl (c : GenCfg) : Bool := getBit c.gen 28
def GenCfg.wrap (c : GenCfg) : Nat := getBits c.gen 16 12
def GenCfg.arg (c : GenCfg) : Nat := c.gen % 65536
/-- REEL: reel, node position, AGE. -/
def GenCfg.reel (c : GenCfg) : Nat := getBits c.arg 13 3
def GenCfg.node (c : GenCfg) : Nat := getBits c.arg 7 6
def GenCfg.age (c : GenCfg) : Nat := getBits c.arg 5 2
def modeReel : Nat := 4

def FigRun.cfgA (r : FigRun) : GenCfg := ⟨r.word 0x04, r.word 0x08, r.word 0x1C, r.word 0x24 / 65536, r.afmt⟩
def FigRun.cfgB (r : FigRun) : GenCfg := ⟨r.word 0x0C, r.word 0x10, r.word 0x1C, r.word 0x24 / 65536, r.bfmt⟩
def FigRun.cfgC (r : FigRun) : GenCfg := ⟨r.word 0x14, r.word 0x18, r.word 0x20, r.word 0x24 % 65536, r.cfmt⟩

/-- What a step's fields are judged against. -/
def FigRun.env (r : FigRun) : FieldEnv :=
  { dot := r.dot, afmt := r.afmt, bfmt := r.bfmt, packOk := r.cfgC.mode == 0 || r.cfgC.mode == modeReel }

/-- CTL passes R131. -/
def ctlOk (ctl : Nat) : Bool :=
  let done := getBits ctl 16 2
  let arg := getBits ctl 4 12
  getBits ctl 28 4 == 0 && ctl % 16 == 0 && done != 3 && (done != 1 || (1024 ≤ arg && arg ≤ 4094)) &&
    (done != 2 || arg ≤ 511)

/-- The "keep 0" bits of ARG in each mode (R127). -/
def argKeep (mode : Nat) : Nat :=
  match mode with
  | 0 => 0xFFFF
  | 2 => 0x3FF0
  | 3 => 0xE0E0
  | 4 => 0x1F
  | _ => 0

/-- A generator word passes R131. -/
def GenCfg.ok (c : GenCfg) (sink : Bool) : Bool :=
  c.mode ≤ 4 && !(sink && c.mode == 3) && !(c.refl && c.wrap == 0) && bandN c.arg (argKeep c.mode) == 0 &&
    !(c.mode == 2 && c.arg / 16384 == 3) && !(c.mode == 3 && 8 * fmtBytes c.fmt < c.arg % 32 + 1)

/-- The checks of R131. -/
def FigRun.descOk (r : FigRun) : Bool := ctlOk (r.word 0) && r.cfgA.ok false && r.cfgB.ok false && r.cfgC.ok true

/-! ### Elements -/

/-- Results needed (R122), and elements in a result (R101). -/
def FigRun.width (r : FigRun) : Nat := if r.dot then 1 else 16
def FigRun.needed (r : FigRun) : Nat := (r.job.vl + r.width - 1) / r.width

/-- Whether an element is on (R102). -/
def FigRun.isOn (r : FigRun) (el : Nat) : Bool := el < r.job.vl && r.start ≤ el && !getBit r.masked el

/-- Whether an element is on and a fault found so far leaves it to be done: below it to commit, at it to be looked at
for an earlier stage's fault (R155, R156). -/
def FigRun.live (r : FigRun) (el : Nat) : Bool :=
  r.isOn el && (match r.fault with
    | none => true
    | some f => decide (el < f.k))
def FigRun.open_ (r : FigRun) (el : Nat) : Bool :=
  r.isOn el && (match r.fault with
    | none => true
    | some f => decide (el ≤ f.k))

/-- The elements of a step's group, and the first of them that is on. -/
def FigRun.group (r : FigRun) (base : Nat) : List Nat := (List.range r.width).map (fun i => base + i)
def FigRun.firstOn (r : FigRun) (base : Nat) : Option Nat := (r.group base).find? r.isOn

/-- Whether a fault comes before another: lower element, then earlier stage, then earlier step (R155). -/
def FigFault.before (f g : FigFault) : Bool :=
  f.k < g.k || (f.k == g.k && (f.rank < g.rank || (f.rank == g.rank && f.no < g.no)))

/-- The figure with one more fault. -/
def FigRun.addFault (r : FigRun) (f : FigFault) : FigRun :=
  match r.fault with
  | none => { r with fault := some f }
  | some g => if f.before g then { r with fault := some f } else r

/-! ### Predicates -/

/-- A bit of a predicate register, as committed, and as a step of the figure sees it (R149). -/
def State.predBit (s : State) (t p el : Nat) : Bool := s.bit (Adr.FIG_P t p (el / 32)) (el % 32)
def predKey (p el : Nat) : Nat := 1024 * p + el
def State.predSeen (s : State) (t : Nat) (r : FigRun) (p el : Nat) : Bool :=
  if mhas r.preds (predKey p el) then mget false r.preds (predKey p el) else s.predBit t p el

/-- The bits of a predicate register, 1,024 as one number. -/
def State.predMask (s : State) (t p : Nat) : Nat := maskOf 1024 (fun el => s.predBit t p el)

/-! ### Places (R130) -/

/-- A place that a generator reaches. -/
inductive FigPlace where
  /-- memory, by its global address -/
  | mem (a : Nat)
  /-- the external memory window -/
  | ext (a : Nat)
  deriving DecidableEq, Repr

/-- The place of `n` bytes at an address of the issuing engine; none outside the ranges of R130. -/
def figPlace (g a n : Nat) : Option FigPlace :=
  match engPlace g a, engPlace g ((a + n - 1) % 2 ^ 32) with
  | .own x, .own y | .tile x, .tile y | .fabric x, .fabric y => if y = x + n - 1 then some (.mem x) else none
  | .ext x, .ext y => if x ≤ y then some (.ext x) else none
  | _, _ => none

/-- What an access comes to. -/
inductive FigGot where
  | bytes (l : List Byte)
  | fault (cause : Nat)
  /-- the answer of external memory is outstanding -/
  | wait
  deriving DecidableEq, Repr

/-- An external access of the running figure, by LOAD or by STORE: its answer, or it is asked for once. -/
def State.figExt (s : State) (t : Nat) (r : FigRun) (write store : Bool) (x : Nat) (bytes : List Byte) (n : Nat) :
    FigGot × State × FigRun :=
  match r.ext.find? (fun e => e.adr == x && e.len == n && e.write == write && e.store == store) with
  | some e => (if e.ok then .bytes e.bytes else .fault figBus, s, r)
  | none =>
    if r.asked.contains (x, n, write, store) then (.wait, s, r)
    else
      (.wait, s.mmAsk { who := .fig t r.job.ticket, write := write, adr := x, len := n, bytes := bytes },
        { r with asked := r.asked ++ [(x, n, write, store)] })

/-- A memory read of the fetch in hand, of an index (`ix`) or of data: a word is accessed once (R451). -/
def State.figMem (s : State) (r : FigRun) (ix : Bool) (x n : Nat) : FigGot × State × FigRun :=
  if s.memErr x then (.fault figBus, s, r)
  else
    let g := s.loadShared ((r.seen.filter (fun k => k.1 == ix)).map (·.2)) x n
    let r := { r with seen := r.seen.filter (fun k => k.1 != ix) ++ g.2.map (fun b => (ix, b)) }
    (if g.1.bad.isSome then .fault figEcc else .bytes g.1.bytes, g.1.st, r)

/-- A read of `n` bytes (R129, R130, R155), of an index (`ix`) or of data, by LOAD or by STORE. -/
def State.figRead (s : State) (t : Nat) (r : FigRun) (ix store : Bool) (adr n align : Nat) : FigGot × State × FigRun :=
  let a := adr % 2 ^ 32
  match figPlace r.job.eng a n with
  | none => (.fault figRange, s, r)
  | some p =>
    if a % align ≠ 0 then (.fault figAlign, s, r)
    else if !allowed r.job.pr r.job.ring a n needR then (.fault figProt, s, r)
    else match p with
      | .ext x => s.figExt t r false store x [] n
      | .mem x => s.figMem r ix x n

/-! ### Reels (R151, R152, R210) -/

/-- Where a reel's slot of a position stands in an area. -/
def reelArea (n off p : Nat) : Nat := 0x20200000 + 0x40000 * n + off + 0x200 * p
def stageAdr (n p : Nat) : Nat := reelArea n 0 p
def lineAdr (n p : Nat) : Nat := reelArea n 0x8000 p
def retAdr (n cycle p : Nat) : Nat := reelArea n (0x10000 + 0x8000 * (cycle % 5)) p

/-- The slot length in the active slot map, in bytes; 0 where the position has no slot. -/
def State.slotEn (s : State) (n p : Nat) : Bool := s.bit (Adr.REEL_SLOT n p) 31
def State.slotWords (s : State) (n p : Nat) : Nat := s.get (Adr.REEL_SLOT n p) ⟨0, 8⟩
def State.slotBytes (s : State) (n p : Nat) : Nat := if s.slotEn n p then 4 * s.slotWords n p else 0

/-- Whether a reel port is fenced (R245). -/
def State.reelFenced (s : State) (n : Nat) : Bool := s.bit Adr.FLT_FPORT n

/-- The cycle to which a source binds at the first step (R151): none when it has not completed. -/
def State.reelBind (s : State) (c : GenCfg) : Option Nat :=
  if (s.reel c.reel).completed ≤ c.age then none
  else some ((s.get (Adr.REEL_RETCYC c.reel) ⟨0, 32⟩ + 2 ^ 32 - c.age) % 2 ^ 32)

/-- A read of `n` bytes at a slot offset of return data. -/
def State.figReelRead (s : State) (r : FigRun) (c : GenCfg) (bound : Option Nat) (off n : Nat) :
    FigGot × State × FigRun :=
  if s.slotBytes c.reel c.node < off + n then (.fault figRange, s, r)
  else if s.reelFenced c.reel then (.fault figBus, s, r)
  else match bound with
    | none => (.fault figStale, s, r)
    | some b =>
      if 4 ≤ (s.get (Adr.REEL_RETCYC c.reel) ⟨0, 32⟩ + 2 ^ 32 - b) % 2 ^ 32 then (.fault figStale, s, r)
      else s.figMem r false (retAdr c.reel b c.node + off) n

/-! ### Generators (R109, R128) -/

/-- The index of a stream position under the wrap. -/
def GenCfg.index (c : GenCfg) (j : Nat) : Nat :=
  if c.wrap = 0 then j
  else if !c.refl then j % c.wrap
  else
    let q := j % (2 * c.wrap)
    if q < c.wrap then q else 2 * c.wrap - 1 - q

/-- The index width in bytes. -/
def GenCfg.iw (c : GenCfg) : Nat := 2 ^ (c.arg / 16384)

/-- What one element's read comes to: its raw value; a fault with its rank (0 at the index, 1 at the data), cause and
failing address; or a wait. -/
inductive GenGot where
  | val (v : Nat)
  | bad (data : Bool) (cause adr : Nat)
  | wait
  deriving DecidableEq, Repr

/-- The index of position `m` of the index stream. A and B both in GATHER mode share one stream, which is read once, also
where the read fails. -/
def State.genIndex (s : State) (t : Nat) (r : FigRun) (c : GenCfg) (shared store : Bool) (m : Nat) :
    GenGot × State × FigRun :=
  let a := (c.idx + m * c.iw) % 2 ^ 32
  let judge (x : Nat) : GenGot := if c.lim < x then .bad false figIndex a else .val x
  if shared && mhas r.idx m then (judge (mget 0 r.idx m), s, r)
  else if shared && mhas r.idxBad m then (.bad false (mget 0 r.idxBad m) a, s, r)
  else
    let g := s.figRead t r true store a c.iw c.iw
    match g.1 with
    | .bytes l => (judge (leVal l), g.2.1, if shared then { g.2.2 with idx := mset g.2.2.idx m (leVal l) } else g.2.2)
    | .fault k => (.bad false k a, g.2.1, if shared then { g.2.2 with idxBad := mset g.2.2.idxBad m k } else g.2.2)
    | .wait => (.wait, g.2.1, g.2.2)

/-- A read at an address, as a generator's result. -/
def State.genData (s : State) (t : Nat) (r : FigRun) (a n align : Nat) (f : Nat → Nat) : GenGot × State × FigRun :=
  let g := s.figRead t r false false a n align
  match g.1 with
  | .bytes l => (.val (f (leVal l)), g.2.1, g.2.2)
  | .fault k => (.bad true k (a % 2 ^ 32), g.2.1, g.2.2)
  | .wait => (.wait, g.2.1, g.2.2)

/-- The signed stride of STRIDE mode. -/
def GenCfg.stride (c : GenCfg) : Int := toSigned 16 c.arg

/-- Address of an element in STRIDE mode. -/
def GenCfg.strideAdr (c : GenCfg) (m : Nat) : Nat := (((c.base : Int) + m * c.stride) % 2 ^ 32).toNat

/-- Stream element `j` of generator A or B. -/
def State.genRead (s : State) (t : Nat) (r : FigRun) (c : GenCfg) (bound : Option Nat) (shared : Bool) (j : Nat) :
    GenGot × State × FigRun :=
  let m := c.index j
  let n := fmtBytes c.fmt
  match c.mode with
  | 0 => s.genData t r (c.base + m * n) n n id
  | 1 => s.genData t r (c.strideAdr m) n n id
  | 2 =>
    let x := s.genIndex t r c shared false m
    match x.1 with
    | .val v => x.2.1.genData t x.2.2 (c.base + v * 2 ^ (c.arg % 16)) n n id
    | g => (g, x.2)
  | 3 =>
    let w := c.arg % 32 + 1
    let bit := getBits c.arg 8 5 + m * w
    s.genData t r (c.base + bit / 8) ((bit % 8 + w + 7) / 8) 1 (fun v => v / 2 ^ (bit % 8) % 2 ^ w)
  | _ =>
    let off := c.base + m * n
    let g := s.figReelRead r c bound off n
    match g.1 with
    | .bytes l => (.val (leVal l), g.2)
    | .fault k => (.bad true k off, g.2)
    | .wait => (.wait, g.2)

/-! ### Writes of generator C (R120, R121, R128) -/

/-- A write of bytes, or of `w` bits from bit `sh` on (R121: bit enables), into memory. -/
def State.figStore (s : State) (x sh w : Nat) (v : Nat) : State :=
  let n := (sh + w + 7) / 8
  let old := leVal (memBytes s.mem x n)
  s.store false x (leBytes n (putBits old sh w v))

/-- A write at an address: bytes when `sh = 0` and `w` is a whole number of bytes; a packed one lies in this tile's
memories (R121). -/
def State.figWrite (s : State) (t : Nat) (r : FigRun) (adr sh w align : Nat) (packed : Bool) (v : Nat) :
    FigGot × State × FigRun :=
  let a := adr % 2 ^ 32
  let n := (sh + w + 7) / 8
  match figPlace r.job.eng a n with
  | none => (.fault figRange, s, r)
  | some p =>
    let outside := packed && (match p with
      | .mem x => memTile x != some t
      | .ext _ => true)
    if outside then (.fault figRange, s, r)
    else if a % align ≠ 0 then (.fault figAlign, s, r)
    else if !allowed r.job.pr r.job.ring a n needW then (.fault figProt, s, r)
    else match p with
      | .ext x => s.figExt t r true true x (leBytes n v) n
      | .mem x => if s.writeErr x n then (.fault figBus, s, r) else (.bytes [], s.figStore x sh w v, r)

/-- A write at a slot offset of the staging copy (R152). -/
def State.figReelWrite (s : State) (c : GenCfg) (off sh w v : Nat) : FigGot × State :=
  let n := (sh + w + 7) / 8
  if s.slotBytes c.reel c.node < off + n then (.fault figRange, s)
  else if s.reelFenced c.reel then (.fault figBus, s)
  else
    let x := stageAdr c.reel c.node + off
    if s.memErr x then (.fault figBus, s) else (.bytes [], s.figStore x sh w v)

/-- The write of an element's `w` bits at stream position `j`. A packed element is a field of the bit stream at CBASE, an
unpacked one has `w / 8` bytes. -/
def State.genWrite (s : State) (t : Nat) (r : FigRun) (packed : Bool) (j w v : Nat) : GenGot × State × FigRun :=
  let c := r.cfgC
  let m := c.index j
  let n := w / 8
  let fin (rank : Bool) (adr : Nat) (g : FigGot × State × FigRun) : GenGot × State × FigRun :=
    match g.1 with
    | .bytes _ => (.val 0, g.2)
    | .fault k => (.bad rank k adr, g.2)
    | .wait => (.wait, g.2)
  let byteOff := if packed then m * w / 8 else m * n
  let sh := if packed then m * w % 8 else 0
  if c.mode = modeReel then
    let off := c.base + byteOff
    let g := s.figReelWrite c off sh w v
    fin true off (g.1, g.2, r)
  else if packed then
    let a := (c.base + byteOff) % 2 ^ 32
    fin true a (s.figWrite t r a sh w 1 true v)
  else match c.mode with
    | 0 => fin true ((c.base + byteOff) % 2 ^ 32) (s.figWrite t r (c.base + byteOff) 0 w n false v)
    | 1 => fin true (c.strideAdr m) (s.figWrite t r (c.strideAdr m) 0 w n false v)
    | _ =>
      let x := s.genIndex t r c false true m
      match x.1 with
      | .val i =>
        let a := (c.base + i * 2 ^ (c.arg % 16)) % 2 ^ 32
        fin true a (x.2.1.figWrite t x.2.2 a 0 w n false v)
      | g => (g, x.2)

end Sys2Proof.Machine
end

