-- ==== Sys2Proof/Machine/Figure.lean ====
section
/-!
DEFINITION. The figure unit at work: start (R98, R131 to R133, R146, R684), sequencer (R99, R122 to R124, R159), the five
stages (R100, R103), commit and faults (R154 to R156), completion (R140 to R145), ABORT (R158) and held accesses (R150).
-/

namespace Sys2Proof.Machine

/-! ### Completion -/

/-- The running figure of a tile replaced. -/
def State.setRun (s : State) (t : Nat) (r : Option FigRun) : State := s.setFigure t { s.figure t with running := r }

/-- The status word of R142 without ANY and ALL. -/
def statusWord (ticket flags cause k : Nat) (fault short : Bool) : Nat :=
  bnat fault * 2 ^ 29 + (if fault then cause * 2 ^ 25 + k % 2048 * 2 ^ 8 else 0) + (if getBit flags 0 then 2 ^ 24 else 0) +
    (if getBit flags 1 then 2 ^ 23 else 0) + (if getBit flags 2 then 2 ^ 22 else 0) + bnat short * 2 ^ 19 + ticket % 256

/-- ANY and ALL over the committed elements (R142). -/
def State.anyAll (s : State) (t : Nat) (r : FigRun) : Nat :=
  let ctl := r.word 0
  if !getBit ctl 18 then 0
  else
    let els := (List.range r.done).filter r.isOn
    let p := getBits ctl 19 3
    (if els.any (fun el => s.predBit t p el) then 2 ^ 21 else 0) +
      (if els.all (fun el => s.predBit t p el) then 2 ^ 20 else 0)

/-- The record of a completed figure, and FIG_STAT.DONE (R141). -/
def State.figRecord (s : State) (t : Nat) (j : FigJob) (status : Nat) : State :=
  let k := j.ticket % 16
  let s := ((s.setReg (Adr.FIG_TKSTAT t k) (BitVec.ofNat 64 status)).setReg (Adr.FIG_TKDP t k) (BitVec.ofNat 64 j.dptr)).put
    (Adr.FIG_STAT t) Bits.FIG_STAT_DONE j.ticket
  let u := s.figure t
  s.setFigure t { u with valid := u.valid ||| 2 ^ k }

/-- FIG_RESUME and FIG_FADDR (R156). -/
def State.figFaulted (s : State) (t : Nat) (j : FigJob) (cause k adr : Nat) : State :=
  (s.setReg (Adr.FIG_RESUME t) (BitVec.ofNat 64 (j.ticket * 2 ^ 24 + cause * 2 ^ 20 + k % 2048))).setReg (Adr.FIG_FADDR t)
    (BitVec.ofNat 64 (adr % 2 ^ 32))

/-- The done action (R145). A figure aborted in the queue whose CTL fails R131 has none (R158). -/
def State.doneAction (s : State) (t : Tile) (j : FigJob) (ctl : Nat) : State :=
  let arg := getBits ctl 4 12
  if j.aborted && !ctlOk ctl then s
  else if getBits ctl 16 2 = 1 then (s.ringTil (.fig t) 0 t.val arg).1
  else if getBits ctl 16 2 = 2 then (s.event t.val (arg % 512) 3 j.ticket).wake t.val
  else s

/-- A slot closes: its bit of REEL_CLOSEDn sets (R211). -/
def State.closeSlot (s : State) (n p : Nat) : State := s.setBit (Adr.REEL_CLOSED n) p

/-- MISCNT, RES1 and STATUS as bytes (R144). -/
def FigRun.resultBytes (r : FigRun) (status : Nat) : List Byte :=
  leBytes 4 r.miscnt ++ leBytes 4 (r.firstmis * 65536 + r.maxrun) ++ leBytes 4 status

/-- The status word of a figure that ends (R142). -/
def State.figStatus (s : State) (t : Nat) (r : FigRun) : Nat :=
  let f := r.fault.getD { k := 0, rank := 0, no := 0, cause := 0 }
  statusWord r.job.ticket r.flags f.cause f.k r.fault.isSome (r.ended && decide (r.issued < r.needed)) + s.anyAll t r

/-- The figure completes once its result words are written: the record, DONE, and the done action (R144). -/
def State.figClosed (s : State) (t : Tile) (r : FigRun) (status : Nat) : State :=
  let j := r.job
  let s := match r.fault with
    | some f => s.figFaulted t.val j f.cause f.k f.adr
    | none => s
  let s := s.figRecord t.val j status
  let c := r.cfgC
  let s := if r.fault.isNone && c.mode == modeReel && !s.reelFenced c.reel then s.closeSlot c.reel c.node else s
  (s.setRun t.val none).doneAction t j (r.word 0)

/-- The last element has committed, or the fault ends the figure: MISCNT, RES1 and STATUS go to the descriptor (R144), and
the figure completes, with a descriptor in external memory when the write is answered. Where the descriptor's memory answers
ERR, the words are not written and the figure completes all the same (DESIGN CHOICE, log 22). -/
def State.figFinish (s : State) (t : Tile) (r : FigRun) : State :=
  let status := s.figStatus t.val r
  let bytes := r.resultBytes status
  match figPlace r.job.eng (r.job.dptr + 0x34) 12 with
  | some (.ext x) =>
    let s := s.mmAsk { who := .fig t.val r.job.ticket, write := true, adr := x, len := 12, bytes := bytes }
    s.setRun t.val (some { r with addr := none, ql := [], qm := [], qx := [], qp := [], qs := [], closing := some (status, false) })
  | some (.mem x) => (if s.writeErr x 12 then s else s.store false x bytes).figClosed t r status
  | none => s.figClosed t r status

/-! ### Start -/

/-- What the read of the descriptor comes to (R684): its words, a fault with its cause and address, or a wait. -/
inductive DescGot where
  | words (l : List Word)
  | bad (cause adr : Nat)
  | wait
  deriving DecidableEq, Repr

/-- The words of 64 bytes. -/
def descWords : (n : Nat) → List Byte → List Word
  | 0, _ => []
  | n + 1, l => BitVec.ofNat 32 (leVal (l.take 4)) :: descWords n (l.drop 4)

/-- The descriptor read, checked as a generator access (R684). -/
def State.descRead (s : State) (t : Nat) (j : FigJob) : DescGot × State :=
  match figPlace j.eng j.dptr 64 with
  | none => (.bad figRange j.dptr, s)
  | some p =>
    if !allowed j.pr j.ring j.dptr 64 needR then (.bad figProt j.dptr, s)
    else match p with
      | .mem x =>
        if s.memErr x then (.bad figBus j.dptr, s)
        else
          let g := s.load x 64
          match g.bad with
          | some b => (.bad figEcc (j.dptr + (b - x)), g.st)
          | none => (.words (descWords 16 g.bytes), g.st)
      | .ext x =>
        let u := s.figure t
        match u.descAnswer with
        | some a =>
          let s := s.setFigure t { u with descAsked := none, descAnswer := none }
          (if a.ok then .words (descWords 16 a.bytes) else .bad figBus j.dptr, s)
        | none =>
          if u.descAsked = some x then (.wait, s)
          else
            (.wait, (s.setFigure t { u with descAsked := some x }).mmAsk
              { who := .fig t j.ticket, write := false, adr := x, len := 64 })

/-- The descriptor could not be read (R684). -/
def State.descFailed (s : State) (t : Nat) (j : FigJob) (cause adr : Nat) : State :=
  (s.figRecord t j (statusWord j.ticket 0 cause 0 true false)).figFaulted t j cause 0 adr

/-- A figure with its descriptor at its start (R133), at its first microword. -/
def figNew (j : FigJob) (first : Nat) (desc : List Word) : FigRun :=
  let st := (desc.getD 15 0).toNat
  let k := getBits st 8 11
  let resume := getBit st 29 && getBits st 25 4 != figDesc && k < j.vl && k != 0
  let res1 := (desc.getD 14 0).toNat
  { job := j, desc := desc, addr := some first,
    start := if resume then k else 0,
    miscnt := if resume then (desc.getD 13 0).toNat else 0,
    firstmis := if resume then res1 / 65536 else 0xFFFF,
    maxrun := if resume then res1 % 65536 else 0,
    done := if resume then k else 0 }

/-- A figure aborted in the queue completes (R158). -/
def State.abortQueued (s : State) (t : Tile) (j : FigJob) : State :=
  match s.descRead t.val j with
  | (.wait, s) => s
  | (.bad c a, s) => s.descFailed t.val j c a
  | (.words l, s) =>
    s.figFinish t { job := j, desc := l, fault := some { k := 0, rank := 0, no := 0, cause := figAbortCause } }

/-- Whether the oldest queued figure has its descriptor at hand: it lies inside, or external memory has answered. -/
def State.descReady (s : State) (t : Nat) (j : FigJob) : Bool :=
  match (s.descRead t j).1 with
  | .wait => false
  | _ => true

/-- The queue without its oldest figure. -/
def State.popFigure (s : State) (t : Nat) : State :=
  let u := s.figure t
  s.setFigure t { u with queue := u.queue.drop 1 }

/-- A figure that the queue gives starts, at the FIG_MAPn.START of now (R137, R157): a fault of its descriptor or VL 0 ends it at once (R131, R146). -/
def State.beginFigure (s : State) (t : Tile) (j : FigJob) (desc : List Word) : State :=
  let r := figNew j (fldOf (s.reg (Adr.FIG_MAP t.val j.num)) Bits.FIG_MAP_START) desc
  if !r.descOk then
    s.figFinish t { r with addr := some 0, fault := some { k := r.start, rank := 0, no := 0, cause := figDesc } }
  else if j.vl = 0 then s.figFinish t { r with addr := none }
  else
    let ctl := r.word 0
    let p := s.predMask t.val (getBits ctl 22 3)
    let masked := if !r.mskEn then 0 else if getBit ctl 25 then p else p ^^^ (2 ^ 1024 - 1)
    s.setRun t.val (some { r with masked := masked })

/-- Whether a held access to a lookup table or predicate register waits for its turn between two figures (R150). -/
def State.tableWaits (s : State) (t : Nat) : Bool :=
  (s.figure t).held ≠ [] || s.engines.any (fun p => match p.2.hold with
    | .figTable n _ => n == t
    | _ => false)

/-- FIGURE_START: the unit takes the oldest queued figure, reads and checks its descriptor and copies its mask. -/
def State.figureStart (s : State) (t : Tile) : State :=
  let u := s.figure t.val
  match u.running, u.queue with
  | none, j :: _ =>
    if s.tableWaits t.val || s.ucRuns t.val 1 2 then s
    else if !s.descReady t.val j then (s.descRead t.val j).2
    else if j.aborted then (s.popFigure t.val).abortQueued t j
    else match (s.popFigure t.val).descRead t.val j with
      | (.words l, s) => s.beginFigure t j l
      | (.bad c a, s) => s.descFailed t.val j c a
      | (.wait, s) => s
  | _, _ => s

/-! ### Abort -/

/-- The running figure ends at its first uncommitted element, or completes (R158). -/
def State.abortRunning (s : State) (t : Tile) : State :=
  match (s.figure t.val).running with
  | none => s
  | some r =>
    if r.closing.isSome then s
    else
    let open_ := (List.range r.job.vl).find? (fun el => r.done ≤ el && r.isOn el)
    match open_ with
    | none => s.figFinish t r
    | some k => s.figFinish t (r.addFault { k := k, rank := 11, no := r.steps, cause := figAbortCause })

/-- Queued figures marked as aborted complete, oldest first, up to one whose descriptor is still being read. -/
def State.drainAborted (s : State) (t : Tile) : (fuel : Nat) → State
  | 0 => s
  | fuel + 1 =>
    match (s.figure t.val).queue with
    | [] => s
    | j :: _ =>
      if !j.aborted ∨ (s.figure t.val).running.isSome then s
      else if !s.descReady t.val j then (s.descRead t.val j).2
      else ((s.popFigure t.val).abortQueued t j).drainAborted t fuel

/-- ABORT (R158). -/
def State.figAbort (s : State) (t : Tile) : State :=
  let s := s.abortRunning t
  let u := s.figure t.val
  (s.setFigure t.val { u with queue := u.queue.map (fun j => { j with aborted := true }) }).drainAborted t 8

/-- The figure unit is fenced (R158, R500, R553): its group is abandoned and the fence acts as ABORT. -/
def State.fenceFigure (s : State) (t : Tile) : State :=
  if s.figFenced t.val then s
  else ((s.setBit Adr.FLT_FTILE (16 + t.val)).abandonGroup (.figFmt t)).figAbort t

/-! ### The sequencer -/

/-- The first element of the first result not yet issued, VL when all are (R155). -/
def FigRun.nextBase (r : FigRun) : Nat := if r.needed ≤ r.issued then r.job.vl else r.width * r.issued

/-- No further step is issued: END, a sequencing error, or a fault whose lower elements have all been issued. -/
def FigRun.stopped (r : FigRun) : Bool :=
  r.addr.isNone || (match r.fault with
    | some f => decide (f.k ≤ r.nextBase)
    | none => false)

/-- A field queue is full (R99). -/
def FigRun.queueFull (r : FigRun) : Bool :=
  8 ≤ r.ql.length || 8 ≤ r.qm.length || 8 ≤ r.qx.length || 8 ≤ r.qp.length || 8 ≤ r.qs.length

/-- The sequencer's next address: none with an error (R123), and the micro-stack. -/
def FigRun.nextAddr (r : FigRun) (a : Nat) (w : MicroWord) (lastPass : Bool) : Option Int × List Nat :=
  let on_ : Int := a + 1
  match mwSeq w with
  | 0 => (some on_, r.stack)
  | 1 => (some (if r.issued < r.needed then a + mwDisp w else on_), r.stack)
  | 2 => (some (if lastPass then on_ else a), r.stack)
  | 3 => if r.stack.length = 4 then (none, r.stack) else (some (a + mwDisp w), (a + 1) :: r.stack)
  | 4 =>
    match r.stack with
    | [] => (none, [])
    | x :: rest => (some x, rest)
  | _ => (none, r.stack)

/-- A sequencing fault (R123, R155): the sequencer stops. -/
def FigRun.seqFault (r : FigRun) : FigRun :=
  ({ r with addr := none }).addFault { k := r.nextBase, rank := 10, no := r.steps, cause := figMicro }

/-- The step at address `a` is issued: its fields enter the five queues, and the next address is formed. -/
def FigRun.issueStep (r : FigRun) (a : Nat) (w : MicroWord) : FigRun :=
  let rpt := mwSeq w == 2
  let last := !rpt || r.rep ≤ r.passes + 1
  let base := r.width * r.issued
  let st : FigStep := { no := r.steps, word := w, first := !rpt || r.passes == 0, last := last, base := base }
  let r := { r with
    ql := r.ql ++ [st], qm := r.qm ++ [st], qx := r.qx ++ [st], qp := r.qp ++ [st], qs := r.qs ++ [st] }
  let r := match badField r.env w, r.firstOn base with
    | some rank, some k => r.addFault { k := k, rank := rank, no := st.no, cause := figMicro }
    | _, _ => r
  let r := { r with
    steps := r.steps + 1, passes := if last then 0 else r.passes + 1,
    issued := if mwEmit w && last then r.issued + 1 else r.issued }
  if mwSeq w = 5 then { r with addr := none, ended := true }
  else match r.nextAddr a w last with
    | (none, _) => r.seqFault
    | (some x, stack) =>
      if x < 0 ∨ 2048 ≤ x then r.seqFault else { r with addr := some x.toNat, stack := stack }

/-- A source in REEL mode binds to its cycle at the figure's first step (R151). -/
def State.figBind (s : State) (r : FigRun) : FigRun :=
  if r.steps = 0 then
    { r with bindA := if r.cfgA.mode = modeReel then s.reelBind r.cfgA else none,
             bindB := if r.cfgB.mode = modeReel then s.reelBind r.cfgB else none }
  else r

/-- SEQUENCER_STEP: one microword is issued; the step above LIMIT is not (R159), and a parity error fences the unit
(R500). -/
def State.sequencerStep (s : State) (t : Tile) : State :=
  match (s.figure t.val).running with
  | none => s
  | some r =>
    if r.stopped ∨ r.queueFull then s
    else match r.addr with
      | none => s
      | some a =>
        let limit := s.get (Adr.FIG_STEPLIM t.val) Bits.FIG_STEPLIM_LIMIT
        let w := s.storeWord (figKey t.val a)
        if limit ≠ 0 ∧ limit ≤ r.steps then s.setRun t.val (some r.seqFault)
        else if !w.figOk then
          (((s.ucError t.val 2 0 a).fencedByHw 5 t.val).fenceFigure t).report 1 (srcTile t.val 9) (BitVec.ofNat 32 a)
        else s.setRun t.val (some ((s.figBind r).issueStep a w.val))

/-! ### LOAD (R108, R109) -/

/-- A lane of a fetch: its stream element, and the element of the figure it belongs to. -/
structure Lane where
  j : Nat
  el : Nat

/-- What a fetch has gathered: lane values so far, values kept for repeats, whether an answer is outstanding. -/
structure Fetch where
  st : State
  run : FigRun
  /-- the elements that are still open when the field begins -/
  isOpen : Nat → Bool
  vals : List Int := []
  kept : Map Nat := []
  waits : Bool := false

/-- One lane of a fetch. Faults are ranked 1 and 2 at the indices of A and B, 3 and 4 at their data (R155). -/
def Fetch.lane (f : Fetch) (t : Nat) (c : GenCfg) (bound : Option Nat) (shared isB : Bool) (no : Nat) (l : Lane) :
    Fetch :=
  if !f.isOpen l.el then { f with vals := f.vals ++ [0] }
  else if mhas f.kept l.j then { f with vals := f.vals ++ [((mget 0 f.kept l.j : Nat) : Int)] }
  else
    let g := f.st.genRead t f.run c bound shared l.j
    match g.1 with
    | .val v => { f with st := g.2.1, run := g.2.2, vals := f.vals ++ [(v : Int)], kept := mset f.kept l.j v }
    | .bad data cause adr =>
      let rank := (if data then 3 else 1) + bnat isB
      { f with st := g.2.1, vals := f.vals ++ [0],
               run := g.2.2.addFault { k := l.el, rank := rank, no := no, cause := cause, adr := adr } }
    | .wait => { f with st := g.2.1, run := g.2.2, vals := f.vals ++ [0], waits := true }

/-- The fetch of one operand: EN, HOLD, RST, BC and K bits as R108 gives them; the generator after it. RST without EN
makes no fetch, and the position stays (DESIGN CHOICE, log 121). Elements in one word share one access (R451). -/
def Fetch.operand (f : Fetch) (t : Nat) (c : GenCfg) (g : FigGen) (bound : Option Nat) (shared isB : Bool)
    (st : FigStep) (hi : Nat) (konst : Nat) : Fetch × FigGen :=
  let w := st.word
  let lanes := if f.run.dot && mwPair8 w then 32 else 16
  if mwBit w (hi - 4) && !mwBit w hi then
    ({ f with vals := List.replicate lanes ((konst % 2 ^ (8 * fmtBytes c.fmt) : Nat) : Int) }, g)
  else if !mwBit w hi then ({ f with vals := List.replicate lanes 0 }, g)
  else
    let p := if mwBit w (hi - 2) then 0 else g.pos
    let bc := mwBit w (hi - 3)
    let hold := mwBit w (hi - 1)
    let again := g.held && g.prev == some p
    let el (i : Nat) : Nat := if f.run.dot then st.base else st.base + i
    let f := (List.range lanes).foldl
      (fun f i => f.lane t c bound shared isB st.no { j := if bc then p else p + i, el := el i })
      { f with vals := [], kept := if again then g.kept else [], run := { f.run with seen := [] } }
    (f, { pos := if hold then p else if bc then p + 1 else p + lanes, prev := some p, held := hold, kept := f.kept })

/-- The LOAD field of a step. While an answer of external memory is outstanding, only the requests are kept. -/
def State.loadField (s : State) (t : Nat) (r : FigRun) (st : FigStep) : State :=
  let shared := r.cfgA.mode == 2 && r.cfgB.mode == 2
  let a := Fetch.operand { st := s, run := r, isOpen := r.open_ } t r.cfgA r.ga r.bindA shared false st 127 (r.word 0x28)
  let b := Fetch.operand { a.1 with vals := [], kept := [] } t r.cfgB r.gb r.bindB shared true st 122 (r.word 0x2C)
  if a.1.waits ∨ b.1.waits then
    { s with mmWait := b.1.st.mmWait }.setRun t (some { r with asked := b.1.run.asked })
  else
    b.1.st.setRun t (some { b.1.run with
      ql := r.ql.drop 1, lm := r.lm ++ [{ no := st.no, a := a.1.vals, b := b.1.vals }],
      ga := a.2, gb := b.2, ext := b.1.run.ext.filter (·.store), asked := b.1.run.asked.filter (·.2.2.2) })

/-- FIG_LOAD_STAGE. -/
def State.loadStage (s : State) (t : Nat) : State :=
  match (s.figure t).running with
  | none => s
  | some r =>
    match r.ql with
    | [] => s
    | st :: rest =>
      if !mwEntry st.word then s.setRun t (some { r with ql := rest })
      else if 4 ≤ r.lm.length then s
      else s.loadField t r st

/-! ### MAP (R110, R111) -/

/-- The operands of an entry after MAP: each read in its own format, then exchanged by SWAP. -/
def State.mapEntry (s : State) (t : Nat) (r : FigRun) (w : MicroWord) (x : FigEntry) : FigEntry :=
  let lut (k : Nat) (i : Nat) : Nat := s.get (Adr.FIG_LUT t k i) ⟨0, 16⟩
  let one (op shr k fmt : Nat) (v : Int) : Int := fmtVal fmt (mapOp op shr (lut k) v.toNat)
  let a := x.a.map (one (mwAop w) (mwFld w 89 86) (mwFld w 96 95) r.afmt)
  let b := x.b.map (one (mwBop w) (mwFld w 84 81) (mwFld w 91 90) r.bfmt)
  if mwBit w 85 then { x with a := b, b := a } else { x with a := a, b := b }

/-- FIG_MAP_STAGE. -/
def State.mapStage (s : State) (t : Nat) : State :=
  match (s.figure t).running with
  | none => s
  | some r =>
    match r.qm with
    | [] => s
    | st :: rest =>
      if !mwEntry st.word then s.setRun t (some { r with qm := rest })
      else match r.lm with
        | [] => s
        | x :: lm =>
          if x.no ≠ st.no ∨ 4 ≤ r.ma.length then s
          else s.setRun t (some { r with qm := rest, lm := lm, ma := r.ma ++ [s.mapEntry t r st.word x] })

/-! ### MAC (R112 to R115) -/

/-- The flags of an element with one more set. -/
def FigRun.flag (r : FigRun) (el f : Nat) : FigRun :=
  if f = 0 then r else { r with fl := mset r.fl el (mget 0 r.fl el ||| f) }

/-- The operation of a step on lane `i`, whose element is on. -/
def State.macLaneStep (s : State) (t : Nat) (st : FigStep) (x : FigEntry) (r : FigRun) (i : Nat) : FigRun :=
  let w := st.word
  let el := st.base + i
  if !r.isOn el then r
  else
    let acc := if mwBit w 67 && st.first then 0 else r.acc.getD i 0
    let a := x.a.getD i 0
    let b := x.b.getD i 0
    let r := { r with acc := r.acc.set i acc }
    match mwOp w with
    | 16 =>
      let p := mwFld w 71 69
      let o := cmpLane (mwFld w 74 72) (if mwBit w 59 then acc else a) b
      { r with preds := mset r.preds (predKey p el) (o && (!mwBit w 68 || s.predSeen t r p el)) }
    | 8 =>
      let d := dotSum r.afmt r.bfmt x.a x.b
      let v := clamp48 (acc + d.1)
      ({ r with acc := r.acc.set i v.1 }).flag el (v.2 ||| d.2)
    | op =>
      let v := macLane op (mwFld w 65 60) r.afmt r.bfmt (s.predSeen t r (mwFld w 71 69) el) a b acc
      ({ r with acc := r.acc.set i v.1 }).flag el v.2

/-- The result that EMIT pushes, its elements that are on with their predicate bits as `seen`; conversion sets their flags except under ACC48 (R163). -/
def FigRun.emit (r : FigRun) (st : FigStep) (x : FigEntry) (seen : Nat → Bool) : FigRun :=
  let els := (List.range r.width).filter (fun i => r.isOn (st.base + i))
  let elem (i : Nat) : FigElem :=
    let acc := r.acc.getD i 0
    { el := st.base + i, acc := acc, val := (emitVal r.job.fmt acc).1, b := x.b.getD i 0, pred := seen (st.base + i) }
  let r := if mwAcc48 st.word then r else els.foldl (fun r i =>
    r.flag (st.base + i) (emitVal r.job.fmt (r.acc.getD i 0)).2) r
  { r with ap := r.ap ++ [{ no := st.no, els := els.map elem }] }

/-- Results that AP and PS hold (R104). -/
def FigRun.resultRoom (r : FigRun) : Nat := if r.dot then 64 else 4

/-- FIG_MAC_STAGE. Under CMPX a step without an entry compares with operand B 0 (DESIGN CHOICE, log 122). PRED in the same
step sees P[PS] before the step's own CMP (R149). -/
def State.macStage (s : State) (t : Nat) : State :=
  match (s.figure t).running with
  | none => s
  | some r =>
    match r.qx with
    | [] => s
    | st :: rest =>
      let emits := mwEmit st.word && st.last
      if emits && r.resultRoom ≤ r.ap.length then s
      else
        let go (x : FigEntry) (ma : List FigEntry) : State :=
          let before := s.predSeen t r (mwPs st.word)
          let r := (List.range r.width).foldl (s.macLaneStep t st x) { r with qx := rest, ma := ma }
          s.setRun t (some (if emits then r.emit st x before else r))
        if !mwEntry st.word then go { no := st.no, a := [], b := [] } r.ma
        else match r.ma with
          | [] => s
          | x :: ma => if x.no ≠ st.no then s else go x ma

/-! ### PACK (R116 to R119) -/

/-- An element after PACK, and the predicate bit that PWR writes. -/
def packElem (w : MicroWord) (acc : FigRun × List FigElem) (e : FigElem) :
    FigRun × List FigElem :=
  let r := acc.1
  let ps := mwPs w
  let q := packOf (mwPack w) (mwFld w 44 41) e.val e.pred
  if mwPack w = 4 then
    let d := cmpxOf r.xmask (mwBit w 35) (fmtVal r.cfmt e.val) e.b
    let r := if mwBit w 37 then { r with preds := mset r.preds (predKey ps e.el) d.1 } else r
    (r, acc.2 ++ [{ e with mis := d.2, dif := d.1 }])
  else (r, acc.2 ++ [{ e with bits := q.1, width := q.2 }])

/-- FIG_PACK_STAGE. -/
def State.packStage (s : State) (t : Nat) : State :=
  match (s.figure t).running with
  | none => s
  | some r =>
    match r.qp with
    | [] => s
    | st :: rest =>
      if !(mwEmit st.word && st.last) then s.setRun t (some { r with qp := rest })
      else match r.ap with
        | [] => s
        | x :: ap =>
          if x.no ≠ st.no ∨ r.resultRoom ≤ r.ps.length then s
          else
            let y := x.els.foldl (packElem st.word) ({ r with qp := rest, ap := ap }, [])
            s.setRun t (some { y.1 with ps := y.1.ps ++ [{ no := x.no, els := y.2 }] })

/-! ### STORE and commit (R120, R121, R149, R154, R164) -/

/-- The predicate bits that an element carries take effect. -/
def State.commitPreds (s : State) (t : Nat) (r : FigRun) (el : Nat) : State :=
  (List.range 8).foldl (fun s p =>
    if mhas r.preds (predKey p el) then
      s.put (Adr.FIG_P t p (el / 32)) ⟨el % 32, 1⟩ (bnat (mget false r.preds (predKey p el)))
    else s) s

/-- An element commits: flags, mismatch counts, the run under STAT. MISCNT beyond 32 bits wraps (DESIGN CHOICE, log 123). -/
def FigRun.commitStats (r : FigRun) (w : MicroWord) (e : FigElem) : FigRun :=
  let run := if mwBit w 36 && e.val != 0 then (if r.lastEl = some (e.el - 1) ∧ 0 < e.el then r.run + 1 else 1) else 0
  { r with
    flags := r.flags ||| mget 0 r.fl e.el,
    miscnt := (r.miscnt + e.mis) % 2 ^ 32,
    firstmis := if e.dif then min r.firstmis e.el else r.firstmis,
    run := run, maxrun := max r.maxrun (min run 0xFFFF), lastEl := some e.el, done := e.el + 1 }

/-- An element passes STORE: written when CEN is set, then committed; false when it waits for external memory. -/
def State.storeElem (s : State) (t : Nat) (st : FigStep) (pos : Nat) (r : FigRun) (e : FigElem) :
    Bool × State × FigRun :=
  if e.el < r.done ∨ !r.live e.el then (true, s, r)
  else
    let w := st.word
    let j := pos + (e.el - st.base)
    let g : GenGot × State × FigRun :=
      if !mwCen w then (.val 0, s, r)
      else if e.width ≠ 0 then s.genWrite t r true j e.width e.bits
      else if mwAcc48 w then s.genWrite t r false j 64 (ofSigned 64 e.acc)
      else s.genWrite t r false j (8 * fmtBytes r.cfmt) e.val
    match g.1 with
    | .wait => (false, g.2.1, g.2.2)
    | .bad _ cause adr =>
      (true, g.2.1, g.2.2.addFault { k := e.el, rank := 9, no := st.no, cause := cause, adr := adr })
    | .val _ => (true, g.2.1.commitPreds t g.2.2 e.el, 
      { g.2.2.commitStats w e with ext := g.2.2.ext.filter (fun x => !x.store), asked := g.2.2.asked.filter (fun x => !x.2.2.2) })

/-- The elements of a result in index order. -/
def State.storeElems (s : State) (t : Nat) (st : FigStep) (pos : Nat) (r : FigRun) : List FigElem → Bool × State × FigRun
  | [] => (true, s, r)
  | e :: l =>
    let g := s.storeElem t st pos r e
    if g.1 then g.2.1.storeElems t st pos g.2.2 l else g

/-- A write into a slot that waits to be read stalls at STORE (R213). -/
def State.slotStalls (s : State) (r : FigRun) (w : MicroWord) (els : List FigElem) : Bool :=
  let c := r.cfgC
  mwCen w && c.mode == modeReel && els.any (fun e => r.live e.el) && !s.reelFenced c.reel &&
    s.bit (Adr.REEL_CLOSED c.reel) c.node

/-- FIG_STORE_STAGE. CRST without CEN writes nothing, and C's position stays (DESIGN CHOICE, log 124). -/
def State.storeStage (s : State) (t : Nat) : State :=
  match (s.figure t).running with
  | none => s
  | some r =>
    match r.qs with
    | [] => s
    | st :: rest =>
      if !(mwEmit st.word && st.last) then s.setRun t (some { r with qs := rest })
      else match r.ps with
        | [] => s
        | x :: ps =>
          let w := st.word
          if x.no ≠ st.no ∨ s.slotStalls r w x.els then s
          else
            let p := if mwBit w 25 then 0 else r.posC
            let g := s.storeElems t st p r x.els
            if !g.1 then g.2.1.setRun t (some g.2.2)
            else
              let r := g.2.2
              g.2.1.setRun t (some { r with
                qs := rest, ps := ps,
                posC := if !mwCen w then r.posC else if mwBit w 26 then p else p + r.width })

/-! ### Completion -/

/-- Whether nothing of the figure is left to be done: no step, or after a fault none with an element to commit. -/
def FigRun.finished (r : FigRun) : Bool :=
  r.stopped && (match r.fault with
    | none => r.qs.isEmpty
    | some _ => r.qs.all (fun st => (r.group st.base).all (fun el => el < r.done || !r.live el)))

/-- FIGURE_COMPLETE: a figure with nothing left to be done ends; one whose result words external memory has taken completes. -/
def State.figureComplete (s : State) (t : Tile) : State :=
  match (s.figure t.val).running with
  | none => s
  | some r =>
    match r.closing with
    | some (status, true) => s.figClosed t r status
    | some (_, false) => s
    | none => if r.finished then s.figFinish t r else s

/-! ### Held accesses (R150) -/

/-- FIG_TABLE_ACCESS: between two figures a held access is performed and answered, and a held load of an engine may
go. -/
def State.figTableAccess (s : State) (t : Nat) : State :=
  let u := s.figure t
  if u.running.isSome then s
  else match u.held with
    | a :: rest =>
      let s := s.setFigure t { u with held := rest }
      match a.val with
      | some v =>
        let m : DWord := if a.adr % 0x100000 < 0x7000 then 0xFFFF else 0xFFFFFFFF
        let s := match a.who with
          | .engine g => s.modEng g.val (fun e => { e with waitResp := e.waitResp.eraseP (fun x => x.faddr.toNat == a.adr) })
          | _ => s
        (s.setReg a.adr (v &&& m)).answerLate a.who a.id .ok
      | none => s.answerLate a.who a.id .ok (portData a.who a.adr 4 (leBytes 4 (s.reg a.adr).toNat))
    | [] =>
      { s with engines := s.engines.map (fun p =>
        (p.1, match p.2.hold with
          | .figTable n _ => if n = t then { p.2 with hold := .figTable n true } else p.2
          | _ => p.2)) }

/-! ### The commands -/

def execFigureStart (t : Tile) (s : State) : Out := .next (s.figureStart t)
def execSequencerStep (t : Tile) (s : State) : Out := .next (s.sequencerStep t)
def execFigLoadStage (t : Tile) (s : State) : Out := .next (s.loadStage t.val)
def execFigMapStage (t : Tile) (s : State) : Out := .next (s.mapStage t.val)
def execFigMacStage (t : Tile) (s : State) : Out := .next (s.macStage t.val)
def execFigPackStage (t : Tile) (s : State) : Out := .next (s.packStage t.val)
def execFigStoreStage (t : Tile) (s : State) : Out := .next (s.storeStage t.val)
def execFigureComplete (t : Tile) (s : State) : Out := .next (s.figureComplete t)
def execFigTableAccess (t : Tile) (s : State) : Out := .next (s.figTableAccess t.val)

/-- FIG_ABORT: a write of FIG_CTL.ABORT (R158, R170). -/
def execFigAbort (who : Initiator) (t : Tile) (s : State) : Out :=
  .next (s.commandOk who .r1 t.val (Adr.FIG_CTL t.val) (fun s => s.figAbort t))

end Sys2Proof.Machine
end

