-- ==== Sys2Proof/Machine/FigIssue.lean ====
section
/-!
DEFINITION. The figure instructions (R134 to R143): FIG, FIG.TRY, SETVL, GETVL, WAIT and WAIT.TRY.
-/

namespace Sys2Proof.Machine

/-- A figure instruction of `len` bytes: class X, touching extended state; its stack rules, then its effect on the cells
it pops (R134, R257, R265). -/
def figCmd (g : Eng) (s : State) (len : Nat) (u : StkUse) (body : State → List Word → State) : Out :=
  .next (s.issue g.val len false true (fun s =>
    s.alone g.val (fun s => s.withExt g.val u (fun s =>
      match (s.eng g.val).arch.bank.check u with
      | .fault x => s.raise g.val x
      | .hold => s.waitFor g.val u
      | .go d _ => body s d))))

/-- The instruction pushes `v` in place of what it pops, with the extended state `x`, and retires. -/
def State.figPush (s : State) (g len : Nat) (u : StkUse) (x : Ext) (v : Word) : State :=
  let e := s.eng g
  s.retire g { e.gone with arch := { e.arch with bank := e.arch.bank.apply u none [v] [], ext := x } } len

/-! ### FIG and FIG.TRY -/

/-- The failing check of R136. -/
def State.figCheck (s : State) (g n : Nat) (d : Word) : Option Nat :=
  let t := tileOf g
  let m := s.reg (Adr.FIG_MAP t n)
  if s.figFenced t then some 15
  else if fldOf m Bits.FIG_MAP_VALID = 0 then some 12
  else if fldOf m Bits.FIG_MAP_RING < (s.eng g).effRing then some 13
  else if d.toNat % 64 ≠ 0 then some 14
  else none

/-- The engines stalled in FIG, in round-robin order after the one served last (R138): those that still run the context
that stalled, at its FIG, and may issue. -/
def State.figStalled (s : State) (t : Nat) : List Nat :=
  let u := s.figure t
  let stalled (e : Nat) : Bool := s.canIssue (16 * t + e) && u.waiters.any (fun w =>
    w.1 == e && s.ctxOf (16 * t + e) == w.2.1 && (s.eng (16 * t + e)).arch.pc == w.2.2)
  ((List.range 16).map (fun i => (u.served + 1 + i) % 16)).filter stalled

/-- Whether an engine may put a figure into the queue now: free places go to the stalled engines first. -/
def State.figPlaceFor (s : State) (g : Nat) : Bool :=
  let u := s.figure (tileOf g)
  decide (((s.figStalled (tileOf g)).takeWhile (· != engOf g)).length + u.queue.length < 8)

/-- The figure enters the queue with what it captures, and the boundary of the format pair group is passed (R137, R140,
R169). -/
def State.figEnter (s : State) (g : Eng) (n : Nat) (d : Word) : State :=
  let t : Tile := ⟨tileOf g.val, by have := g.isLt; unfold tileOf; omega⟩
  let e := s.eng g.val
  let s := if s.groupPending (.figFmt t) then s.groupBoundary (.figFmt t) (s.fmtCheck t.val) else s
  let m := s.reg (Adr.FIG_MAP t.val n)
  let tk := s.get (Adr.FIG_STAT t.val) Bits.FIG_STAT_NEXT
  let j : FigJob := {
    num := n, dptr := d.toNat, vl := e.arch.ext.vl, ring := e.effRing, pr := e.effPr, eng := g.val,
    fmt := s.reg (Adr.FIG_FMT t.val (fldOf m Bits.FIG_MAP_FMT)), ticket := tk }
  let u := s.figure t.val
  (s.setFigure t.val { u with
    queue := u.queue ++ [j], waiters := u.waiters.filter (fun w => w.1 != engOf g.val), served := engOf g.val }).countWrap
    (Adr.FIG_STAT t.val) Bits.FIG_STAT_NEXT

/-- The ticket cells after a ticket is taken (R256). -/
def takeTicket (x : Ext) (t : Nat) : Ext :=
  { x with tkt1 := x.tkt1 <<< 8 ||| x.tkt0 >>> 24, tkt0 := x.tkt0 <<< 8 ||| BitVec.ofNat 32 t }

/-- The effect of FIG and FIG.TRY on `dptr`. -/
def State.figOp (s : State) (g : Eng) (n : Nat) (try_ : Bool) (d : Word) : State :=
  let e := s.eng g.val
  let u : StkUse := { dIn := 1, dOut := 1 }
  let t := tileOf g.val
  match s.figCheck g.val n d with
  | some k => s.raise g.val { code := excFigure, detail := k, faddr := d }
  | none =>
    if e.sb ≠ [] ∨ e.waitResp ≠ [] then s
    else if s.figPlaceFor g.val then
      let tk := s.get (Adr.FIG_STAT t) Bits.FIG_STAT_NEXT
      (s.figEnter g n d).figPush g.val 2 u (takeTicket e.arch.ext tk) (BitVec.ofNat 32 tk)
    else if try_ then s.figPush g.val 2 u e.arch.ext 0xFFFFFFFF
    else
      let x := s.figure t
      let w := (engOf g.val, s.ctxOf g.val, e.arch.pc)
      (s.setFigure t { x with waiters := x.waiters.filter (fun y => y.1 != engOf g.val) ++ [w] }).setEng g.val
        (e.countCycle pcFigStall)

/-- FIG n. -/
def execFig (g : Eng) (n : BitVec 8) (s : State) : Out :=
  figCmd g s 2 { dIn := 1, dOut := 1 } (fun s d => s.figOp g n.toNat false (d.getD 0 0))

/-- FIG.TRY n. -/
def execFigTry (g : Eng) (n : BitVec 8) (s : State) : Out :=
  figCmd g s 2 { dIn := 1, dOut := 1 } (fun s d => s.figOp g n.toNat true (d.getD 0 0))

/-- SETVL: VL := min(n, 1,024), pushed (R135). -/
def execSetvl (g : Eng) (s : State) : Out :=
  figCmd g s 1 { dIn := 1, dOut := 1 } (fun s d =>
    let v := vlOf (d.getD 0 0)
    s.figPush g.val 1 { dIn := 1, dOut := 1 } { (s.eng g.val).arch.ext with vl := v } (BitVec.ofNat 32 v))

/-- GETVL: pushes VL. -/
def execGetvl (g : Eng) (s : State) : Out :=
  figCmd g s 1 { dOut := 1 } (fun s _ =>
    let x := (s.eng g.val).arch.ext
    s.figPush g.val 1 { dOut := 1 } x (BitVec.ofNat 32 x.vl))

/-! ### WAIT and WAIT.TRY (R143) -/

/-- Whether a ticket is queued or running (R140). -/
def State.outstanding (s : State) (t tk : Nat) : Bool :=
  let u := s.figure t
  u.queue.any (fun j => j.ticket == tk) || (match u.running with
    | some r => r.job.ticket == tk
    | none => false)

/-- The status that the record of a ticket gives, when it holds the ticket. -/
def State.ticketRecord (s : State) (t tk : Nat) : Option Nat :=
  let st := (s.reg (Adr.FIG_TKSTAT t (tk % 16))).toNat
  if getBit (s.figure t).valid (tk % 16) ∧ st % 256 = tk then some st else none

/-- PEND and EXP of the word a WAIT pushes. -/
def waitPend : Nat := 2 ^ 31
def waitExp : Nat := 2 ^ 30

/-- The effect of WAIT and WAIT.TRY on a ticket. -/
def State.waitOp (s : State) (g : Eng) (try_ : Bool) (d : Word) : State :=
  let e := s.eng g.val
  let u : StkUse := { dIn := 1, dOut := 1 }
  let t := tileOf g.val
  let tk := d.toNat % 256
  let push (x : Ext) (v : Nat) : State := s.figPush g.val 1 u x (BitVec.ofNat 32 v)
  if 256 ≤ d.toNat then push e.arch.ext waitExp
  else if s.outstanding t tk then
    (if try_ then push e.arch.ext (waitPend + tk) else s.setEng g.val (e.countCycle pcFigStall))
  else match s.ticketRecord t tk with
    | none => push e.arch.ext (waitExp + tk)
    | some st =>
      let x : Ext := { e.arch.ext with wsum := BitVec.ofNat 32 st }
      if getBit st 29 ∧ !try_ then
        (s.raise g.val {
          code := excFigure, detail := getBits st 25 4,
          faddr := BitVec.ofNat 32 (s.reg (Adr.FIG_TKDP t (tk % 16))).toNat }).modEng g.val (fun e =>
            { e with arch := { e.arch with ext := { e.arch.ext with wsum := BitVec.ofNat 32 st } } })
      else push x st

/-- WAIT. -/
def execWait (g : Eng) (s : State) : Out :=
  figCmd g s 1 { dIn := 1, dOut := 1 } (fun s d => s.waitOp g false (d.getD 0 0))

/-- WAIT.TRY. -/
def execWaitTry (g : Eng) (s : State) : Out :=
  figCmd g s 1 { dIn := 1, dOut := 1 } (fun s d => s.waitOp g true (d.getD 0 0))

end Sys2Proof.Machine
end

