-- ==== Sys2Proof/Machine/Fence.lean ====
section
/-!
DEFINITION. What a fence does to an engine, a figure unit and a tile (R553, R555, R557), whatever brings it.
-/

namespace Sys2Proof.Machine

/-- An engine stops: younger instructions are discarded, retired stores drain, the link clears (R314, R553). -/
def Engine.stop (e : Engine) : Engine :=
  { e with
    sb := e.sb.filter (fun x => e.flights.all (fun f => x.tag ≤ f.tag)), flights := [], slot := none, exc := none,
    arrived := [],
    hold := .none, link := none, firm := 0, needD := 0, needR := 0, spillD := false, spillR := false, fillD := false,
    fillR := false, switchTo := none, stepping := false, dbgPend := false, inMon := false,
    idle := match e.idle with
      | .loaded _ _ => .empty
      | x => x }

/-- The context that an engine runs becomes LOST (R367). -/
def State.loseRunning (s : State) (g : Nat) : State :=
  let t := tileOf g
  if s.placed g then
    (s.setCtx t (s.ctxOf g) ctxLost).put (Adr.CAL_ENG t (engOf g)) Bits.CAL_ENG_PLACED 0
  else s

/-- One engine is fenced, its tile aside. -/
def State.fenceOne (s : State) (g : Nat) : State :=
  if s.engFenced g then s
  else ((s.loseRunning g).modEng g Engine.stop).setBit (Adr.FLT_FENG (tileOf g)) (engOf g)

/-- The march of a fenced tile stops (R472). A March C− leaves contents that nothing reads: the tile answers ERR until
its release clears them. -/
def State.stopMarch (s : State) (t : Nat) : State :=
  let a := Adr.TIL_MARCHST t
  if s.get a Bits.TIL_MARCHST_BUSY = 1 then (s.put a Bits.TIL_MARCHST_BUSY 0).put a Bits.TIL_MARCHST_RESULT 3 else s

/-- A tile that is fenced while a command runs: RESULT 3 (R504). How far the command had come is not observable: the
tile answers ERR until its release reloads every store. -/
def State.ucFenced (s : State) (t : Nat) : State :=
  let st := Adr.UC_STAT t
  if s.get st Bits.UC_STAT_BUSY = 1 then (s.put st Bits.UC_STAT_BUSY 0).put st Bits.UC_STAT_RESULT 3 else s

/-- Whether a report comes over the report path of a tile (R543). -/
def Report.from_ (r : Report) (t : Nat) : Bool := r.src / 256 == t

/-- Every tile is fenced: the source "no keeper" (R555). In the fatal state, whose entry fences every tile, it reports
nothing more (DEDUCED, log 23). -/
def State.noKeeper (s : State) : State :=
  if !s.fatal && (List.range 12).all (fun t => s.tileFenced t) then s.report 2 0x5043 else s

/-- A tile is fenced (R553, R557): its figure unit, its engines, its groups, its march. -/
def State.fenceTile (s : State) (t : Tile) : State :=
  if s.tileFenced t.val then s
  else
    let s := s.fenceFigure t
    let s := (List.range 16).foldl (fun s e => s.fenceOne (16 * t.val + e)) s
    let s := ((s.abandonGroup (.margin t)).stopMarch t.val).ucFenced t.val
    ((s.setBit Adr.FLT_FTILE t.val).put Adr.FLT_FTILE ⟨16 + t.val, 1⟩ 1).noKeeper

/-- A tile is fenced by software: reports on their way from it are ignored (R544). -/
def State.fenceTileSoft (s : State) (t : Tile) : State :=
  if s.tileFenced t.val then s
  else ({ s with reports := s.reports.filter (fun r => !r.from_ t.val) } : State).fenceTile t

/-- The tile of an engine. -/
def engTile (g : Eng) : Tile := ⟨tileOf g.val, by have := g.isLt; unfold tileOf; omega⟩

/-- A source fences a tile and reports (R543, R544): its report is the last from that tile. -/
def State.sourceFenceTile (s : State) (t : Tile) (src : Nat) (det : Word) : State :=
  if s.tileFenced t.val then s
  else
    (({ s with reports := s.reports ++ [{ cls := 1, src := src, det := det, last := true, cyc := s.fbclk }] } :
      State).fencedByHw 6 t.val).fenceTile t

/-- A source fences an engine, for E0 its tile, and reports at class U (R542, R555). -/
def State.sourceFenceEng (s : State) (g : Eng) (src : Nat) (det : Word) : State :=
  if isLead g.val then s.sourceFenceTile (engTile g) src det else ((s.fencedByHw 4 g.val).fenceOne g.val).report 1 src det

/-- An engine is fenced by software, for E0 its tile (R555). -/
def State.fenceEngSoft (s : State) (g : Eng) : State :=
  if isLead g.val then s.fenceTileSoft (engTile g) else s.fenceOne g.val

end Sys2Proof.Machine
end

