-- ==== Sys2Proof/Machine/Answer.lean ====
section
/-!
DEFINITION. Operations in flight: their results reach the cells that wait for them (R320, R321), a squash brings back the
state before one of them (R322, R403), and an answer from afar reaches whoever asked (R301, R324, R529, R672).
-/

namespace Sys2Proof.Machine

/-! ### Results (R321) -/

/-- The cells of a stack with those that wait for operation `tag` made ready; a load's values come top first. -/
def fillCells (tag : Nat) : List Word → List Cell → List Cell
  | _, [] => []
  | vs, c :: r =>
    if c.wait = some tag then
      match vs with
      | v :: vs' => { c with val := v, wait := none } :: fillCells tag vs' r
      | [] => { c with wait := none } :: fillCells tag [] r
    else c :: fillCells tag vs r

/-- The result in a boundary's state. -/
def Arch.fill (tag : Nat) (vs : List Word) (a : Arch) : Arch :=
  { a with bank := { a.bank with ds := fillCells tag vs a.bank.ds, rs := fillCells tag vs a.bank.rs } }

def Slot.fill (tag : Nat) (vs : List Word) (x : Slot) : Slot := { x with before := x.before.fill tag vs }

/-- Operation `tag` completes: its cells are ready, in the state and in every state that a squash could bring back. -/
def Engine.finish (e : Engine) (tag : Nat) (vs : List Word) : Engine :=
  { e with
    arch := e.arch.fill tag vs
    slot := e.slot.map (Slot.fill tag vs)
    flights := (e.flights.filter (fun f => f.tag != tag)).map (fun f =>
      { f with before := f.before.fill tag vs, slot := f.slot.map (Slot.fill tag vs) }) }

/-- The engine goes back before an operation in flight: it and everything younger is squashed (R322, R403). -/
def Engine.squashTo (e : Engine) (f : Flight) : Engine :=
  { e with
    arch := { f.before with perf := perfBack e.arch.perf f.before.perf, perfCtl := e.arch.perfCtl }, slot := f.slot
    flights := e.flights.filter (fun x => x.tag < f.tag)
    sb := e.sb.filter (fun x => x.tag ≤ f.tag)
    hold := .none, needD := 0, needR := 0, exc := none }

/-- The cells that a load of `n` bytes writes, top first (R298). -/
def resultCells (n : Nat) (sx : Bool) (v : Nat) : List Word :=
  if n = 8 then [BitVec.ofNat 32 (v / 2 ^ 32), BitVec.ofNat 32 v]
  else if sx then [BitVec.ofNat 32 (ofSigned 32 (toSigned (8 * n) v))]
  else [BitVec.ofNat 32 (v % 2 ^ (8 * n))]

/-- The load `f` has its value: data comparators and the actions that count performed accesses meet it now (R652). A
WATCH squashes it. -/
def State.loadWatched (s : State) (g : Nat) (f : Flight) (a n : Nat) (cell : Word) (go : State → State) : State :=
  if s.get (Adr.DBG_TCTL (tileOf g)) Bits.DBG_TCTL_EN = 0 then go s
  else
    let x : Access := { adr := a, size := n, isLoad := true, isStore := false, value := cell, phase := 2 }
    let t := s.triggers g f.before.pc.toNat (some x)
    if t.watch.isSome then
      let y := ((t.st.eng g).squashTo f).rollback
      t.st.setEng g { y with exc := some { code := excWatch, faddr := BitVec.ofNat 32 a } }
    else if t.dbgReq.isSome then go (t.st.requestDebug g 2)
    else go t.st

/-- The answer to a load of the external or the remote window. An ERR raises bus error at the load, which is taken when
every older operation has completed (R301, R322). A load that was squashed meanwhile takes no answer. -/
def State.loadAnswer (s : State) (g tag : Nat) (ok : Bool) (v : Nat) : State :=
  let e := s.eng g
  match e.flights.find? (fun f => f.tag == tag) with
  | none => s
  | some f =>
    match f.kind with
    | .ext a n sx | .remote a n sx =>
      if ok then
        let cells := resultCells n sx v
        s.loadWatched g f a n (cells.getLastD 0) (fun s => s.setEng g ((s.eng g).finish tag cells))
      else
        let x := (e.squashTo f).rollback
        s.setEng g { x with exc := some { code := excBus, faddr := BitVec.ofNat 32 a } }
    | _ => s

/-! ### Answers -/

/-- The answer to a store that an engine has drained (R324). -/
def State.storeAnswer (s : State) (g : Nat) (faddr : Word) (ctx : Nat) (ok : Bool) : State :=
  let x : StoreAnswer := ⟨faddr, ctx⟩
  s.modEng g (fun e =>
    if e.waitResp.contains x then
      { e with
        waitResp := e.waitResp.erase x
        errs := if ok then e.errs else e.errs ++ [x] }
    else e)

/-- The answer to a request of a figure: the descriptor of the oldest queued one, the result words of one that completes, or
an access of the running one; any other is of a figure that has ended. -/
def State.figAnswer (s : State) (t ticket : Nat) (x : ExtAnswer) : State :=
  let u := s.figure t
  if u.descAsked = some x.adr ∧ u.descAnswer = none ∧ !x.write ∧ x.len = 64 ∧ u.queue.head?.any (fun j => j.ticket == ticket)
  then s.setFigure t { u with descAnswer := some x }
  else match u.running with
    | none => s
    | some r =>
      let same (a l : Nat) (w : Bool) : Bool := a == x.adr && l == x.len && w == x.write
      if r.job.ticket ≠ ticket then s
      else match r.closing with
        | some (st, _) =>
          if x.write ∧ x.len = 12 then s.setFigure t { u with running := some { r with closing := some (st, true) } } else s
        | none =>
          match r.asked.find? (fun a => same a.1 a.2.1 a.2.2.1 &&
              !r.ext.any (fun e => same e.adr e.len e.write && e.store == a.2.2.2)) with
          | some a => s.setFigure t { u with running := some { r with ext := r.ext ++ [{ x with store := a.2.2.2 }] } }
          | none => s

/-- An answer from the external memory or another block reaches whoever asked. Letters are answered elsewhere. -/
def State.farAnswer (s : State) (who : MmWho) (write : Bool) (adr len : Nat) (ok : Bool) (bytes : List Byte) : State :=
  match who with
  | .load g tag => s.loadAnswer g tag ok (leVal bytes)
  | .store g faddr ctx => s.storeAnswer g faddr ctx ok
  | .fig t ticket => s.figAnswer t ticket { adr := adr, len := len, write := write, bytes := bytes, ok := ok }
  | .port w id n =>
    if ok then s.answerLate w id .ok (if write then 0 else portData w adr n bytes) else s.answerLate w id .err
  | .letter _ => s

end Sys2Proof.Machine
end

