-- ==== Sys2Proof/Machine/Crc.lean ====
section
/-!
DEFINITION. The checks that the lines and the start-up use: CRC-32 (R217), CRC-8 (R215) and CRC-32C (R514).
-/

namespace Sys2Proof.Machine

/-- One bit of a reflected 32-bit CRC of the reflected polynomial `poly`. -/
def crcBit (poly c : Nat) : Nat := if c % 2 = 1 then (c / 2) ^^^ poly else c / 2

/-- Bits of a byte, `n` of them. -/
def crcBits (poly : Nat) : Nat → Nat → Nat
  | 0, c => c
  | n + 1, c => crcBits poly n (crcBit poly c)

/-- The running value after bytes. -/
def crcFrom (poly c : Nat) : List Byte → Nat
  | [] => c
  | b :: r => crcFrom poly (crcBits poly 8 (c ^^^ b.toNat)) r

/-- CRC-32 (R217): polynomial 0x04C1_1DB7, reflected, initial value and final XOR 0xFFFF_FFFF. -/
def crc32 (l : List Byte) : Nat := crcFrom 0xEDB88320 0xFFFFFFFF l ^^^ 0xFFFFFFFF

/-- CRC-32C (R514): polynomial 0x1EDC_6F41, reflected, initial value and final XOR 0xFFFF_FFFF. -/
def crc32c (l : List Byte) : Nat := crcFrom 0x82F63B78 0xFFFFFFFF l ^^^ 0xFFFFFFFF

/-- One bit of the CRC-8 of polynomial x^8 + x^2 + x + 1, not reflected. -/
def crc8Bit (c : Nat) : Nat := if 128 ≤ c then (c * 2 % 256) ^^^ 7 else c * 2 % 256

def crc8Bits : Nat → Nat → Nat
  | 0, c => c
  | n + 1, c => crc8Bits n (crc8Bit c)

/-- HCRC of R215: the plain remainder, initial value 0. -/
def crc8From (c : Nat) : List Byte → Nat
  | [] => c
  | b :: r => crc8From (crc8Bits 8 (c ^^^ b.toNat)) r

def crc8 (l : List Byte) : Nat := crc8From 0 l

end Sys2Proof.Machine
end

