-- ==== Sys2Proof/Machine/Reel.lean ====
section
/-!
DEFINITION. The reel hub (chapter 5): the states of a reel and its transmit pair (R243), the addressing pass (R204 to
R209), cycles and their boundary (R214 to R227), returns (R221 to R223), express frames (R231 to R238), lock, LOSS and
EVENT sets (R239 to R242).
-/

namespace Sys2Proof.Machine

/-! ### States -/

def reelDown : Nat := 0
def reelSafe : Nat := 1
def reelAddress : Nat := 2
def reelCycling : Nat := 3
def reelFencedSt : Nat := 4

/-- REEL_STATn.STATE, and the state with it replaced. -/
def State.reelState (s : State) (n : Nat) : Nat := s.get (Adr.REEL_STAT n) Bits.REEL_STAT_STATE
def State.setReelState (s : State) (n x : Nat) : State := s.put (Adr.REEL_STAT n) Bits.REEL_STAT_STATE x

/-- REEL_CTLn.EN. -/
def State.reelEnabled (s : State) (n : Nat) : Bool := s.get (Adr.REEL_CTL n) Bits.REEL_CTL_EN == 1

/-- Whether the reel PLL is locked and drives the pairs, and the pin guard lets them (R243, R574). -/
def State.reelClock (s : State) : Bool := s.powerGood == 7 && getBit s.plls 1 && !s.standby && !s.poreset

/-- The transmit pair of a reel (R243; DEDUCED, log 134). -/
def State.txPair (s : State) (n : Nat) : TxPair :=
  if !getBit s.powerGood 0 then .highImpedance
  else if s.powerGood ≠ 7 ∨ !getBit s.plls 1 ∨ s.standby then .static
  else if s.fatal ∨ s.reelFenced n then .safe
  else if (s.reel n).pass.isSome then .pass
  else if s.poreset ∨ s.mode = modeBoot ∨ s.mode = modeTest ∨ s.mode = modeRecovery then .safe
  else if s.reelEnabled n ∧ s.get (Adr.REEL_CTL n) Bits.REEL_CTL_FSAFE = 0 ∧ s.reelState n = reelCycling then .cycle
  else .safe

/-- Whether the transmit pair carries cycle frames. -/
def State.reelSending (s : State) (n : Nat) : Bool := s.txPair n == .cycle

/-- The set that a reel repeats while no frame is on its line (R198, R243). -/
def State.lineSet (s : State) (n : Nat) : Option ReelSet :=
  match s.txPair n with
  | .highImpedance | .static => none
  | .safe => some .safe
  | .pass | .cycle => some .idle

/-- The code groups of a set: control ones first, then data ones (R198). -/
def ReelSet.codes : ReelSet → List Byte × List Byte
  | .idle => ([0xBC], [0x50])
  | .align => ([0xBC], [0x4A])
  | .soc => ([0xBC], [0x55])
  | .eoc => ([0xBC], [0x56])
  | .safe => ([0xBC], [0x45])
  | .addr => ([0xBC], [0x4C])
  | .conf => ([0xBC], [0x4D])
  | .exs => ([0xFB], [])
  | .ext => ([0xFD], [])

/-- The words of a part before which ALIGN goes: the first word boundary with 1,024 symbol times since the last K28.5, and every
26 words on; the boundary before EOC is one of them (R199). The times count from the end of the set that held it (DESIGN
CHOICE, log 126). -/
def alignsOf (since words : Nat) (eoc : Bool) : List Nat :=
  let first := (1024 - since + 39) / 40
  (List.range (words + bnat eoc)).filter (fun i => first ≤ i && (i - first) % 26 == 0)

/-- A reel carries a part of a frame: whole words between two sets. -/
def ReelUnit.carry (u : ReelUnit) (head : Option ReelSet) (l : List Byte) (tail : Option ReelSet) : ReelUnit :=
  let since := if head = none then u.since else 0
  let words := l.length / 4
  let a := alignsOf since words tail.isSome
  { u with
    sent := l, head := head, tail := tail, aligns := a
    since := match a.getLast? with
      | some i => 40 * (words - i)
      | none => since + 40 * words }

/-- An express frame of `n` entries ends: ALIGN never enters it, and it restarts no count (R199, R231). -/
def ReelUnit.carryExpress (u : ReelUnit) (l : List Byte) (n : Nat) : ReelUnit :=
  { u with sent := l, head := some .exs, tail := some .ext, aligns := [], since := u.since + 100 + 40 * n }

/-- The flags of R242 with the codes of R542: bit of REEL_STATn. The report's detail is REEL_ERRPOSn. -/
def State.reelFlag (s : State) (n bit code : Nat) : State :=
  s.raiseFlag (Adr.REEL_STAT n) bit (srcReel n code) ((s.reg (Adr.REEL_ERRPOS n)).setWidth 32)

/-! ### Line time (R219) -/

/-- S0 of a slot map, read by `rd`. -/
def lineSymbols (rd : Nat → DWord) (n : Nat) : Nat :=
  (List.range 64).foldl (fun a p =>
    let v := rd (Adr.REEL_SLOT n p)
    if fldOf v Bits.REEL_SLOT_EN = 1 then a + 10 * (8 + 4 * fldOf v Bits.REEL_SLOT_LEN) else a) 200

/-- ⌈8F/7⌉ in ns, with F = 0.4 ns × (S0 + 20·⌊S0 / 1,024⌋). -/
def lineWindow (rd : Nat → DWord) (n : Nat) : Nat :=
  let s0 := lineSymbols rd n
  (16 * (s0 + 20 * (s0 / 1024)) + 34) / 35

/-- Whether a descriptor is valid: LEVEL, SLEN and NDLY (R205, R208). -/
def descValid (w0 w1 w2 : Nat) : Bool :=
  (w0 % 4 == 1 || w0 % 4 == 2) && 1 ≤ w1 % 256 && w1 % 256 ≤ 128 && w2 % 256 ≤ 20

/-- A word of a descriptor. -/
def State.nodeWord (s : State) (n p w : Nat) : Nat := (s.reg (Adr.REEL_NODE n p w)).toNat

/-- Whether a position was found by the last pass with a valid descriptor whose SLEN is `len`. -/
def State.slotFits (s : State) (n p len : Nat) : Bool :=
  p < s.get (Adr.REEL_STAT n) Bits.REEL_STAT_NODES &&
    descValid (s.nodeWord n p 0) (s.nodeWord n p 1) (s.nodeWord n p 2) && s.nodeWord n p 1 % 256 == len

/-- The check of R227 on the copy that `rd` reads. -/
def State.reelCheck (s : State) (rd : Nat → DWord) (n : Nat) : Bool :=
  let per := fldOf (rd (Adr.REEL_PER n)) Bits.REEL_PER_PER
  let fire := fldOf (rd (Adr.REEL_FIRE n)) Bits.REEL_FIRE_FIRE
  let w := lineWindow rd n
  500 ≤ per && per ≤ 100000 && w + 2000 ≤ per * 10 &&
    (List.range 64).all (fun p =>
      let v := rd (Adr.REEL_SLOT n p)
      fldOf v Bits.REEL_SLOT_EN == 0 || s.slotFits n p (fldOf v Bits.REEL_SLOT_LEN)) &&
    (fire == 0 || w + s.get (Adr.REEL_LOOP n) Bits.REEL_LOOP_LOOP + 5120 ≤ fire * 10) &&
    (fldOf (rd (Adr.REEL_PER n)) Bits.REEL_PER_MODE == 0 || fldOf (rd (Adr.REEL_AINC n)) Bits.REEL_AINC_INC != 0) &&
    2 * per * 10 ≤ s.get (Adr.REEL_CTL n) Bits.REEL_CTL_HOLD * 50000

/-! ### Express queue (R234, R236) -/

/-- QLEN shows the entries queued. -/
def queued (q : List (List Word)) : Nat := (q.map List.length).foldl (· + ·) 0
def State.showQueue (s : State) (n : Nat) : State :=
  s.put (Adr.REEL_EXSTAT n) Bits.REEL_EXSTAT_QLEN (queued (s.reel n).queue)

/-- The saturating addition of `k` to a count. -/
def State.addSat (s : State) (a : Nat) (f : Fld) (k : Nat) : State := s.put a f (min (2 ^ f.w - 1) (s.get a f + k))

/-- The transmit pair has stopped carrying cycle frames: queued entries go, and the writes that wait get ERR (R236). -/
def State.dropExpress (s : State) (n : Nat) : State :=
  let u := s.reel n
  let k := queued u.queue
  let s := (s.setReel n { u with queue := [], waiting := [] }).showQueue n
  let s := if k = 0 then s
    else (s.addSat (Adr.REEL_EXDROP n) Bits.REEL_EXDROP_DROPPED k).put (Adr.REEL_STAT n) Bits.REEL_STAT_EXDROP 1
  u.waiting.foldl (fun s w => s.replyLate w.who w.id .err (Adr.REEL_EXP n)) s

/-- Waiting writes enter the queue in order while there is room. -/
def State.admitExpress (s : State) (n : Nat) : (fuel : Nat) → State
  | 0 => s
  | fuel + 1 =>
    let u := s.reel n
    match u.waiting with
    | [] => s
    | w :: rest =>
      if queued u.queue + w.entries.length ≤ 64 then
        (((s.setReel n { u with queue := u.queue ++ [w.entries], waiting := rest }).showQueue n).replyLate w.who w.id
          .ok (Adr.REEL_EXP n)).admitExpress n fuel
      else s

/-! ### Stopping (R37, R243) -/

/-- Whether the frame of the current cycle is in flight: the first bit of its SOC has left the pins (R37, R220). -/
def State.inFlight (s : State) (n : Nat) : Bool :=
  let u := s.reel n
  u.begun || u.soc ≤ s.time.toNat

/-- The frame on the line ends: cut, or, when it is not in flight, not sent at all, its slots still CLOSED. -/
def State.endFrame (s : State) (n : Nat) (cut : Bool) : State :=
  let u := s.reel n
  if u.todo = [] then s
  else if s.inFlight n then
    (if cut then s.setReel n { u with todo := [], latched := 0, snap := [] } else s)
  else s.setReel n { u with todo := [], latched := 0, snap := [], cycles := u.cycles.dropLast }

/-- What follows when a reel may have stopped sending cycle frames. -/
def State.reelStop (s : State) (n : Nat) (cut : Bool) : State :=
  if s.reelSending n then s else (s.endFrame n cut).dropExpress n

/-- Every reel. -/
def State.reelsStop (s : State) (cut : Bool) : State := (List.range 8).foldl (fun s n => s.reelStop n cut) s

/-- The reel port stands still: Standby, or the reel PLL stops (R243, R588). -/
def State.reelDark (s : State) (n : Nat) : State :=
  let s := s.setReelState n (if s.reelFenced n then reelFencedSt else reelDown)
  let s := (s.reelStop n true).put (Adr.REEL_STAT n) Bits.REEL_STAT_LOCK 0
  s.setReel n { s.reel n with pass := none, cycles := [], frames := [] }

/-- The reel PLL locks: a reel that is DOWN sends SAFE sets (R243); a fenced one stays FENCED. -/
def State.reelLit (s : State) (n : Nat) : State :=
  if s.reelState n = reelDown ∧ !s.reelFenced n then s.setReelState n reelSafe else s

/-- A reel port is fenced (R245). -/
def State.fenceReel (s : State) (n : Reel) : State :=
  if s.reelFenced n.val then s
  else
    let s := (s.setBit Adr.FLT_FPORT n.val).setReelState n.val reelFencedSt
    let s := (s.abandonGroup (.reel n)).reelStop n.val true
    s.setReel n.val { s.reel n.val with pass := none }

/-- The fence of a reel port is released (R553). -/
def State.releaseReel (s : State) (n : Nat) : State :=
  if s.reelFenced n then
    let s := (s.clrBit Adr.FLT_FPORT n).setReelState n reelSafe
    s.setReel n { s.reel n with barred := false }
  else s

/-! ### The addressing pass (R204 to R209) -/

/-- The ADDR frame after ADDR: count word, 64 places, CRC-32. -/
def addrFrame : List Byte :=
  let body := leBytes 1028 0
  body ++ leBytes 4 (crc32 body)

/-- A pass starts: the ADDR frame goes out. -/
def State.startPass (s : State) (n : Nat) : State :=
  if s.reelClock ∧ !s.fatal ∧ !s.reelFenced n ∧ (s.reel n).pass = none then
    (s.setReel n ({ s.reel n with pass := some {} }.carry (some .addr) addrFrame (some .eoc))).setReelState n reelAddress
  else s

/-- A pass has failed (R208): it is retried until its third failure. -/
def State.passFailed (s : State) (n : Nat) : State :=
  let u := s.reel n
  match u.pass with
  | none => s
  | some p =>
    if p.fails < 2 then 
      s.setReel n ({ u with pass := some { conf := false, fails := p.fails + 1 } }.carry (some .addr) addrFrame (some .eoc))
    else ((s.setReel n { u with pass := none, failed := true }).setReelState n reelSafe).reelFlag n 2 0x1A

/-- DLY_p for the CONF entry (R206), from LOOP and the forwarding delays of the nodes found. -/
def confDelay (loop : Nat) (dly : List Nat) (p : Nat) : Nat :=
  let sum : Nat := dly.foldl (· + ·) 0
  let den : Int := (dly.length : Int) + 1
  let before : Nat := (dly.take p).foldl (· + ·) 0
  let num : Int := ((p : Int) + 1) * ((loop : Int) - (sum : Int)) + den * (before : Int)
  ((2 * num + den) / (2 * den)).toNat % 65536

/-- The CONF frame after CONF (R207): 64 entries and CRC-32. -/
def confFrame (hold loop : Nat) (dly : List Nat) : List Byte :=
  let body := (List.range 64).flatMap (fun p =>
    leBytes 2 hold ++ leBytes 2 (if p < dly.length then confDelay loop dly p else 0) ++ leBytes 4 0)
  body ++ leBytes 4 (crc32 body)

/-- The returning ADDR frame (R206, R208): LOOP, NODES, the descriptors, and the CONF frame goes out. -/
def State.addrReturn (s : State) (n : Nat) (crcGood : Bool) (count : Nat) (descs : List NodeDesc) (loop : Nat) : State :=
  let u := s.reel n
  match u.pass with
  | none => s
  | some p =>
    if p.conf then s
    else
      let s := s.put (Adr.REEL_LOOP n) Bits.REEL_LOOP_LOOP loop
      if !crcGood then s.passFailed n
      else
        let k := min 64 count
        let d (p : Nat) : NodeDesc := if p < k then descs.getD p ⟨0, 0, 0, 0⟩ else ⟨0, 0, 0, 0⟩
        let s := s.put (Adr.REEL_STAT n) Bits.REEL_STAT_NODES k
        let s := (List.range 64).foldl (fun s p =>
          (((s.setReg (Adr.REEL_NODE n p 0) ((d p).w0.setWidth 64)).setReg (Adr.REEL_NODE n p 1)
            ((d p).w1.setWidth 64)).setReg (Adr.REEL_NODE n p 2) ((d p).w2.setWidth 64)).setReg (Adr.REEL_NODE n p 3)
            ((d p).w3.setWidth 64)) s
        let bad := (List.range k).any (fun p => !descValid (d p).w0.toNat (d p).w1.toNat (d p).w2.toNat)
        let s := if bad then s.reelFlag n 10 0x18 else s
        let s := if 64 < count then s.reelFlag n 11 0x19 else s
        let dly := (List.range k).map (fun p => (d p).w2.toNat % 256)
        s.setReel n ({ s.reel n with pass := some { p with conf := true } }.carry (some .conf)
          (confFrame (s.get (Adr.REEL_CTL n) Bits.REEL_CTL_HOLD) loop dly) (some .eoc))

/-- The returning CONF frame (R207, R208): every node found acknowledges, and the pass has succeeded. -/
def State.confReturn (s : State) (n : Nat) (crcGood : Bool) (acks : Nat) : State :=
  let u := s.reel n
  match u.pass with
  | none => s
  | some p =>
    if !p.conf then s
    else if !crcGood ∨ !(List.range (s.get (Adr.REEL_STAT n) Bits.REEL_STAT_NODES)).all (fun i => getBit acks i) then
      s.passFailed n
    else (s.setReel n { u with pass := none, passed := true, failed := false }).setReelState n reelSafe

/-- PASS_TIMEOUT: the frame has not returned within 100 µs. -/
def State.passTimeout (s : State) (n : Nat) : State := s.passFailed n

/-! ### REEL_CTLn (R209, R246) -/

/-- A write of REEL_CTLn: HOLD, RETDB, FSAFE, EN and ADDR. -/
def State.reelCtlWrite (s : State) (n v : Nat) : State :=
  let a := Adr.REEL_CTL n
  let was := s.reelEnabled n
  let hold := getBits v 24 8
  let s := if !was ∧ 1 ≤ hold ∧ hold ≤ 200 then s.put a Bits.REEL_CTL_HOLD hold else s
  let s := (s.put a Bits.REEL_CTL_RETDB (v / 8)).put a Bits.REEL_CTL_FSAFE (v / 2)
  let s := s.put a Bits.REEL_CTL_EN v
  let s := if getBit v 2 ∧ was then s.put (Adr.REEL_STAT n) Bits.REEL_STAT_ADDRREF 1 else s
  let s := if (getBit v 2 ∧ !was) ∨ (getBit v 0 ∧ !was ∧ !(s.reel n).passed) then s.startPass n else s
  let s := if !getBit v 0 ∧ s.reelState n = reelCycling then s.setReelState n reelSafe else s
  s.reelStop n false

/-! ### Cycle starts (R220, R224 to R227) -/

/-- A reel whose EN is 1 and whose pass has succeeded enters CYCLE when the active group passes R227; a failed check sets
MAPBAD, and the reel then waits for a group that passes. -/
def State.tryCycle (s : State) (n : Nat) : State :=
  let u := s.reel n
  if s.reelState n = reelSafe ∧ s.reelEnabled n ∧ u.passed ∧ !u.failed ∧ u.pass = none ∧ !u.barred ∧
      (s.mode = modeCommission ∨ s.mode = modeRun) ∧ !s.fatal then
    if s.reelCheck s.reg n then
      (s.setReelState n reelCycling).setReel n { u with first := true }
    else (s.setReel n { u with barred := true }).reelFlag n 9 0x17
  else s

/-- The boundary of the reel's group (R227). -/
def State.reelBoundary (s : State) (n : Reel) : State :=
  if s.groupPending (.reel n) then
    if s.reelCheck s.shadowReg n.val then
      let s := s.applyGroup (.reel n)
      s.setReel n.val { s.reel n.val with barred := false }
    else s.rejectGroup (.reel n)
  else s

/-- The bytes of STAGE that a latched slot holds at the latch (R212). -/
def State.stageBytes (s : State) (n p : Nat) : List Byte := memBytes s.mem (stageAdr n p) (4 * s.slotWords n p)

/-- The 16-byte header (R215). -/
def cycleHeader (cycle angle time fire flags : Nat) : List Byte :=
  let b := leBytes 4 cycle ++ leBytes 4 angle ++ leBytes 4 time ++ leBytes 2 fire ++ leBytes 1 flags
  b ++ leBytes 1 (crc8 b)

/-- A header with another TIME. -/
def retime (h : List Byte) (time : Nat) : List Byte :=
  let b := h.take 8 ++ leBytes 4 time ++ (h.drop 12).take 3
  b ++ leBytes 1 (crc8 b)

/-- A cycle starts (R220): CYCLE, the latched set, what each slot goes out as, the header, and the CYC source. SOC leaves 100 ns
later, or at the end of an express frame on the line. -/
def State.beginCycle (s : State) (n : Nat) (ang keep : Bool) : State :=
  let s := s.countWrap (Adr.REEL_CYCLE n) ⟨0, 32⟩
  let u := s.reel n
  let no := (s.reg (Adr.REEL_CYCLE n)).toNat
  let slots := (List.range 64).filter (fun p => s.slotEn n p)
  let latched := if keep then 0 else (s.reg (Adr.REEL_CLOSED n)).toNat
  let per := s.reg (Adr.REEL_PER n)
  let enc := s.get (Adr.REEL_AINC n) Bits.REEL_AINC_SRC
  let angle := if fldOf per Bits.REEL_PER_MODE = 1 then s.angle enc else 0
  let now := s.time.toNat
  let soc := max (now + 100) u.exEnd
  let header := cycleHeader no angle soc (s.get (Adr.REEL_FIRE n) Bits.REEL_FIRE_FIRE)
  let flags := bnat ang * 128 + bnat keep * 64 + bnat u.first * 32
  let s := s.setReel n (({ u with
    todo := slots, start := now, soc := soc, begun := false, header := header flags, trig := false, latched := latched,
    snap := slots.filterMap (fun p => if getBit latched p then some (p, s.stageBytes n p) else none),
    repeats := u.bad, nsafe := (s.reg (Adr.FLT_FNODE n)).toNat, keep := keep, first := false,
    cycles := u.cycles ++ [{ no := no, ang := ang, slots := slots.map (fun p => (p, s.slotWords n p)) }] } : ReelUnit).carry
      (some .soc) (header flags) (if slots = [] then some .eoc else none))
  s.ringHw (256 + 4 * n)

/-- How far ahead the next trigger lies, in angle LSB: the next of PHASE + m·INC above an angle (DEDUCED, log 24: the
spacing is counted within the 32-bit angle). -/
def State.triggerFrom (s : State) (n a : Nat) : Nat :=
  let inc := s.get (Adr.REEL_AINC n) Bits.REEL_AINC_INC
  let phase := (s.reg (Adr.REEL_APHASE n)).toNat
  (((phase : Int) - a - 1) % (inc : Int)).toNat + 1
def State.triggerAhead (s : State) (n : Nat) : Nat := s.triggerFrom n (s.angle (s.get (Adr.REEL_AINC n) Bits.REEL_AINC_SRC))

/-- The time before which no cycle starts after the last one (R226). -/
def State.nextStart (s : State) (n : Nat) : Nat := (s.reel n).start + lineWindow s.reg n + 2000

/-- Whether a cause can start a cycle of this reel now (R224): a trigger needs angle mode, a crossing that no cycle has answered,
and the time of R226; the clock starts cycles in time mode, and in either mode it runs while the reel is not cycling. -/
def State.causeHolds (s : State) (n : Nat) (c : CycleCause) : Bool :=
  let angleMode := s.get (Adr.REEL_PER n) Bits.REEL_PER_MODE == 1
  match c with
  | .time => !angleMode || !s.reelSending n
  | .trigger => angleMode && (s.reel n).trig && decide (s.nextStart n ≤ s.time.toNat)

/-- CYCLE_START: the boundary, the entry to CYCLE, and the start where the reel sends cycle frames. In angle mode the
clock of a reel that was not cycling starts nothing. -/
def State.cycleStart (s : State) (n : Reel) (c : CycleCause) : State :=
  if !s.reelClock ∨ (s.reel n.val).todo ≠ [] ∨ !s.causeHolds n.val c then s
  else
    let angleMode := s.get (Adr.REEL_PER n.val) Bits.REEL_PER_MODE == 1
    let s := (s.reelBoundary n).tryCycle n.val
    let s := s.setReel n.val { s.reel n.val with trig := false }
    if !s.reelSending n.val then s
    else match c with
      | .time => if angleMode then s else s.beginCycle n.val false false
      | .trigger => s.beginCycle n.val true false

/-- Whether R225 suppresses a keep cycle: velocity in 2^-24 LSB per ns. -/
def State.keepSuppressed (s : State) (n : Nat) : Bool :=
  s.triggerAhead n * 2 ^ 24 <
    (s.velNow (s.get (Adr.REEL_AINC n) Bits.REEL_AINC_SRC)).natAbs * (lineWindow s.reg n + 2000)

/-- KEEP_CYCLE_START: PER has passed without a trigger (R224, R225). -/
def State.keepCycleStart (s : State) (n : Reel) : State :=
  let angleMode := s.get (Adr.REEL_PER n.val) Bits.REEL_PER_MODE == 1
  if !s.reelClock ∨ (s.reel n.val).todo ≠ [] ∨ !angleMode ∨ (s.reel n.val).trig then s
  else if s.reelSending n.val ∧ s.keepSuppressed n.val then s
  else
    let s := (s.reelBoundary n).tryCycle n.val
    if s.reelSending n.val then s.beginCycle n.val false true else s

/-- A forward crossing of PHASE + m·INC between the bus angles of two FBCLK cycles is a trigger (R78, R224). One that comes
earlier than R226 lets a cycle start waits, with TLATE, and merges with the others that wait (DEDUCED, log 133). -/
def State.reelTrigger (s : State) (bus : Map Nat) (n : Nat) : State :=
  let enc := s.get (Adr.REEL_AINC n) Bits.REEL_AINC_SRC
  let a0 := mget 0 bus enc
  let moved := toSigned 32 ((mget 0 s.bus enc + 2 ^ 32 - a0) % 2 ^ 32)
  if s.get (Adr.REEL_PER n) Bits.REEL_PER_MODE = 0 ∨ s.get (Adr.REEL_AINC n) Bits.REEL_AINC_INC = 0 ∨
      moved < (s.triggerFrom n a0 : Int) then s
  else
    let early := s.reelSending n && decide (s.time.toNat < s.nextStart n)
    let s := if early then s.reelFlag n 8 0x16 else s
    s.setReel n { s.reel n with trig := true }

/-- ANGLE_UPDATE: one FBCLK cycle of the angle base, its comparators and the reels in angle mode. -/
def execAngleUpdate (s : State) : Out :=
  .next ((List.range 8).foldl (fun u n => u.reelTrigger s.bus n) s.angleUpdate)

/-! ### Slots (R212, R216, R217, R223, R244) -/

/-- The bytes that the hub takes from STAGE: a word written between the latch and the read may or may not be sent, each
8-byte word by a free value (R212). -/
def State.stageMix (s : State) : List Byte → List Byte → (fuel : Nat) → List Byte × State
  | _, [], _ | _, _, 0 => ([], s)
  | old, new, fuel + 1 =>
    if old.take 8 = new.take 8 then
      let r := s.stageMix (old.drop 8) (new.drop 8) fuel
      (new.take 8 ++ r.1, r.2)
    else
      let f := s.free
      let r := f.2.stageMix (old.drop 8) (new.drop 8) fuel
      ((if bitOf f.1 0 then new.take 8 else old.take 8) ++ r.1, r.2)

/-- A write of the hub into LINE or RET. -/
def State.hubWrite (s : State) (a : Nat) (bytes : List Byte) : State :=
  if bytes = [] ∨ s.memErrs a bytes.length then s else s.store false a bytes

/-- A latched slot: STAGE goes into LINE and CLOSED clears; an uncorrectable STAGE leaves LINE as it was (R212, R459), and so
does one whose memory answers ERR (R470; DESIGN CHOICE, log 127).
The answer is whether the slot was refreshed. -/
def State.refresh (s : State) (n p : Nat) : Bool × State :=
  let u := s.reel n
  let len := 4 * s.slotWords n p
  if s.memErrs (stageAdr n p) len then (false, s.clrBit (Adr.REEL_CLOSED n) p)
  else
    let g := s.load (stageAdr n p) len
    let m := g.st.stageMix (mget g.bytes u.snap p) g.bytes 64
    let s := if g.bad.isSome then g.st else m.2.hubWrite (lineAdr n p) m.1
    (g.bad.isNone, s.clrBit (Adr.REEL_CLOSED n) p)

/-- The payload that LINE gives: where its memory answers ERR or with uncorrectable data, what goes out is open. -/
def State.lineBytes (s : State) (n p : Nat) : List Byte × State :=
  let len := 4 * s.slotWords n p
  if s.memErrs (lineAdr n p) len then s.freeBytes len
  else
    let g := s.load (lineAdr n p) len
    if g.bad.isSome then g.st.freeBytes len else (g.bytes, g.st)

/-- SLOT_TRANSMIT: the next slot of the frame goes out. -/
def State.slotTransmit (s : State) (n : Nat) : State :=
  let u := s.reel n
  match u.todo with
  | [] => s
  | p :: rest =>
    let latched := getBit u.latched p
    let r := if latched then s.refresh n p else (false, s)
    let safe := getBit u.nsafe p
    let again := !latched && getBit u.repeats p
    let isOpen := safe || (if latched then !r.1 else !again && !u.keep)
    let words := s.slotWords n p
    let line := r.2.lineBytes n p
    let hdr := bnat isOpen * 2 ^ 31 + bnat (again && !safe) * 2 ^ 30 + bnat safe * 2 ^ 29 + p * 256 + words
    let body := leBytes 4 hdr ++ line.1
    line.2.setReel n ({ line.2.reel n with todo := rest, begun := true }.carry none (body ++ leBytes 4 (crc32 body))
      (if rest = [] then some .eoc else none))

/-! ### Returns (R221, R222) -/

/-- A list of bytes of exactly `k`, zeros at the end. -/
def fitBytes (k : Nat) (l : List Byte) : List Byte := l.take k ++ List.replicate (k - l.length) 0

/-- RETURN_SLOT_RECEIVE: the slot belongs to the oldest cycle whose return is not complete. -/
def State.returnSlot (s : State) (n : Nat) (hdrGood : Bool) (r : SlotReturn) : State :=
  let u := s.reel n
  match u.cycles with
  | [] => s
  | c :: rest =>
    let p := r.pos.val
    match c.slots.find? (fun x => x.1 == p) with
    | none => s
    | some (_, words) =>
      if c.got.contains p then s
      else
        let lostHdr := c.hdrBad || !hdrGood
        let lost := lostHdr || !r.crcGood || !r.rvalid
        let bad := lost || r.inbad
        let s := if lostHdr then s.reelFlag n 5 0x13 else s
        let s := if !r.crcGood then s.reelFlag n 6 0x12 else if !r.rvalid then s.reelFlag n 0 0x14 else s
        let s := s.hubWrite (retAdr n c.no p) (if lost then leBytes (4 * words) 0 else fitBytes (4 * words) r.payload)
        let s := if bad then s.countSat (Adr.REEL_CNT n) Bits.REEL_CNT_BAD else s
        s.setReel n { s.reel n with
          cycles := { c with got := c.got ++ [p], bad := c.bad ||| (if bad then 2 ^ p else 0), hdrBad := lostHdr } ::
            rest }

/-- Slots that are lost at completion, those for which `lost` holds. -/
def State.loseMissing (s : State) (n : Nat) (c : ReelCycle) (lost : Nat → Bool) : List (Nat × Nat) → State
  | [] => s
  | (p, words) :: r =>
    if !lost p then s.loseMissing n c lost r
    else
      ((s.hubWrite (retAdr n c.no p) (leBytes (4 * words) 0)).countSat (Adr.REEL_CNT n) Bits.REEL_CNT_BAD).loseMissing n c
        lost r

/-- RETURN_COMPLETE: at EOC, or when the time of R222 has passed. `hdr`: whether the header that came back behind SOC passed its
checks (R221); none when SOC has not come back. LOOP takes the measure that SOC's return gives. -/
def State.returnComplete (s : State) (n : Nat) (hdr : Option Bool) (loop : Nat) : State :=
  match (s.reel n).cycles with
  | [] => s
  | c :: rest =>
    let badHdr := hdr == some false
    let lost (p : Nat) : Bool := !c.got.contains p || (badHdr && !getBit c.bad p)
    let s := if badHdr && !c.hdrBad then s.reelFlag n 5 0x13 else s
    let s := s.loseMissing n c lost c.slots
    let good := maskOf 64 (fun p => c.slots.any (fun x => x.1 == p) && !lost p && !getBit c.bad p)
    let bad := maskOf 64 (fun p => c.slots.any (fun x => x.1 == p) && !getBit good p)
    let s := (s.setReg (Adr.REEL_RETOK n) (BitVec.ofNat 64 good)).setReg (Adr.REEL_RETCYC n) (BitVec.ofNat 64 c.no)
    let s := if hdr.isSome then s.put (Adr.REEL_LOOP n) Bits.REEL_LOOP_LOOP loop else s
    let s := s.setReel n { s.reel n with cycles := rest, bad := bad, completed := (s.reel n).completed + 1 }
    if s.get (Adr.REEL_CTL n) Bits.REEL_CTL_RETDB = 0 ∨ c.ang then s.ringHw (257 + 4 * n) else s

/-! ### REEL_CLOSEn and REEL_EXPn -/

/-- A write of REEL_CLOSEn (R211, R245). -/
def State.reelCloseWrite (s : State) (n v : Nat) : State × Code :=
  if s.reelFenced n then (s, .err)
  else if getBit v 6 then
    ((List.range 64).foldl (fun s p => if s.slotEn n p then s.closeSlot n p else s) s, .ok)
  else (s.closeSlot n (v % 64), .ok)

/-- The entries of a write that are not empty (R232, R234). -/
def expEntries (v : Nat) : List Word :=
  ([BitVec.ofNat 32 v, BitVec.ofNat 32 (v / 2 ^ 32)] : List Word).filter (fun w => getBits w.toNat 12 2 != 3)

/-- A write of REEL_EXPn (R234): its code, or none while its response waits for room. -/
def State.reelExpWrite (s : State) (who : Initiator) (n v : Nat) : State × Option Code :=
  let es := expEntries v
  if s.reelFenced n then (s, some .err)
  else if es = [] then (s, some .ok)
  else if !s.reelSending n then (s, some .err)
  else if es.any (fun w => w.toNat / 2 ^ 29 != n) then (s, some .err)
  else
    let u := s.reel n
    if u.waiting = [] ∧ queued u.queue + es.length ≤ 64 then
      ((s.setReel n { u with queue := u.queue ++ [es] }).showQueue n, some .ok)
    else (s.setReel n { u with waiting := u.waiting ++ [{ who := who, id := s.hostNow, entries := es }] }, none)

/-! ### Express frames (R231, R235, R238) -/

/-- Whole writes from the head of the queue, up to `room` entries. -/
def takeWrites : List (List Word) → Nat → List Word × List (List Word)
  | [], _ => ([], [])
  | w :: r, room =>
    if w.length ≤ room then
      let x := takeWrites r (room - w.length)
      (w ++ x.1, x.2)
    else ([], w :: r)

/-- An express frame between EXS and EXT (R231). -/
def expressBytes (sq : Nat) (es : List Word) : List Byte :=
  let body := leBytes 4 (sq * 2 ^ 24 + es.length) ++ es.flatMap (fun w => leBytes 4 w.toNat)
  body ++ leBytes 4 (crc32 body)

/-- EXPRESS_FRAME_START: EXS begins to leave, at a word boundary of the cycle frame, which lies between two parts of it. SOC of a
cycle that has started waits for the frame's end, and TIME follows it (R215, R220). The number of the first frame after
reset is open. -/
def State.expressStart (s : State) (n : Nat) : State :=
  let u := s.reel n
  if !s.reelSending n ∨ s.get (Adr.REEL_EXSTAT n) Bits.REEL_EXSTAT_ALLOW = 0 ∨ u.queue = [] then s
  else
    let x := takeWrites u.queue 16
    let q : Nat × State :=
      if u.numbered then ((s.get (Adr.REEL_EXSTAT n) Bits.REEL_EXSTAT_SEQ + 1) % 256, s)
      else (s.free.1.toNat % 256, s.free.2)
    let now := s.time.toNat
    let ends := now + 40 + 16 * x.1.length
    let waits := u.todo ≠ [] && !s.inFlight n
    let u := if waits then { u with soc := max u.soc ends, header := retime u.header (max u.soc ends) } else u
    let s := q.2.setReel n ({ u with
      queue := x.2, numbered := true, frames := u.frames ++ [(q.1, x.1.length)], exEnd := ends }.carryExpress
        (expressBytes q.1 x.1) x.1.length)
    let s := (s.put (Adr.REEL_EXSTAT n) Bits.REEL_EXSTAT_SEQ q.1).put (Adr.REEL_EXSTAT n) Bits.REEL_EXSTAT_ALLOW 0
    (s.showQueue n).admitExpress n 64

/-- EXPRESS_ALLOWANCE_OPEN: 7·L symbol times have passed since the frame. -/
def State.allowanceOpen (s : State) (n : Nat) : State := s.put (Adr.REEL_EXSTAT n) Bits.REEL_EXSTAT_ALLOW 1

/-- EXPRESS_FRAME_RETURN: `acks` holds the ACK of entry i in bit i. -/
def State.expressReturn (s : State) (n : Nat) (intact : Bool) (acks : Nat) : State :=
  let u := s.reel n
  match u.frames with
  | [] => s
  | (_, k) :: rest =>
    let s := s.setReel n { u with frames := rest }
    if !intact then s.countSat (Adr.REEL_EXSTAT n) Bits.REEL_EXSTAT_LOST
    else
      let nack := ((List.range k).filter (fun i => !getBit acks i)).length
      if nack = 0 then s
      else (s.addSat (Adr.REEL_EXSTAT n) Bits.REEL_EXSTAT_NACK nack).reelFlag n 7 0x15

/-! ### Lock, LOSS and EVENT sets (R239 to R241, R625) -/

/-- Whether flags and sources of the reel are raised: in BOOT only once its EN is loaded (R625). -/
def State.reelHeard (s : State) (n : Nat) : Bool := s.mode != modeBoot || s.reelEnabled n

/-- LOCK_LOSS. -/
def State.lockLoss (s : State) (n : Nat) : State :=
  if s.get (Adr.REEL_STAT n) Bits.REEL_STAT_LOCK = 0 then s
  else
    let s := s.put (Adr.REEL_STAT n) Bits.REEL_STAT_LOCK 0
    if s.reelHeard n then
      ((s.reelFlag n 3 0x10).countSat (Adr.REEL_CNT n) Bits.REEL_CNT_LOSSCNT).ringHw (258 + 4 * n)
    else s

/-- LOCK_REGAIN. -/
def State.lockRegain (s : State) (n : Nat) : State :=
  if s.reelClock then s.put (Adr.REEL_STAT n) Bits.REEL_STAT_LOCK 1 else s

/-- LOSS_SET_RECEIVE. -/
def State.lossSet (s : State) (n pos : Nat) : State :=
  if s.reelClock ∧ s.reelHeard n then
    ((s.put (Adr.REEL_ERRPOS n) Bits.REEL_ERRPOS_BREAKPOS pos).put (Adr.REEL_ERRPOS n) Bits.REEL_ERRPOS_BRKV 1).reelFlag n
      4 0x11
  else s

/-- EVENT_SET_RECEIVE. -/
def State.eventSet (s : State) (n pos : Nat) : State :=
  if s.reelClock ∧ s.reelHeard n then
    ((s.put (Adr.REEL_ERRPOS n) Bits.REEL_ERRPOS_EVPOS pos).put (Adr.REEL_ERRPOS n) Bits.REEL_ERRPOS_EVV 1).ringHw
      (259 + 4 * n)
  else s

/-! ### The commands -/

/-- REEL_ADDR: a write of REEL_CTLn with ADDR 1 and its other fields as they stand. -/
def execReelAddr (who : Initiator) (n : Reel) (s : State) : Out :=
  .next (s.commandOk who .r1 0 (Adr.REEL_CTL n.val)
    (fun s => s.reelCtlWrite n.val ((s.reg (Adr.REEL_CTL n.val)).toNat ||| 4)))

/-- REEL_EN: a write of REEL_CTLn with EN 1 and its other fields as they stand. -/
def execReelEn (who : Initiator) (n : Reel) (s : State) : Out :=
  .next (s.commandOk who .r1 0 (Adr.REEL_CTL n.val)
    (fun s => s.reelCtlWrite n.val ((s.reg (Adr.REEL_CTL n.val)).toNat ||| 1)))

/-- ADDR_FRAME_RETURN. -/
def execAddrFrameReturn (n : Reel) (crcGood : Bool) (count : BitVec 8) (descs : List NodeDesc) (loop : BitVec 16)
    (s : State) : Out :=
  .next (s.addrReturn n.val crcGood count.toNat descs loop.toNat)

/-- CONF_FRAME_RETURN. -/
def execConfFrameReturn (n : Reel) (crcGood : Bool) (acks : BitVec 64) (s : State) : Out :=
  .next (s.confReturn n.val crcGood acks.toNat)

/-- PASS_TIMEOUT. -/
def execPassTimeout (n : Reel) (s : State) : Out := .next (s.passTimeout n.val)

/-- CYCLE_START. -/
def execCycleStart (n : Reel) (c : CycleCause) (s : State) : Out := .next (s.cycleStart n c)

/-- KEEP_CYCLE_START. -/
def execKeepCycleStart (n : Reel) (s : State) : Out := .next (s.keepCycleStart n)

/-- SLOT_TRANSMIT. -/
def execSlotTransmit (n : Reel) (s : State) : Out := .next (s.slotTransmit n.val)

/-- RETURN_SLOT_RECEIVE. -/
def execReturnSlotReceive (n : Reel) (hdrGood : Bool) (r : SlotReturn) (s : State) : Out :=
  .next (s.returnSlot n.val hdrGood r)

/-- RETURN_COMPLETE. -/
def execReturnComplete (n : Reel) (hdr : Option Bool) (loop : BitVec 16) (s : State) : Out :=
  .next (s.returnComplete n.val hdr loop.toNat)

/-- REEL_CLOSE: a write of REEL_CLOSEn. -/
def execReelClose (who : Initiator) (n : Reel) (v : Word) (s : State) : Out :=
  .next (s.command who .r2 0 0 (Adr.REEL_CLOSE n.val) (fun s => s.reelCloseWrite n.val v.toNat))

/-- REEL_EXP: a write of REEL_EXPn. -/
def execReelExp (who : Initiator) (n : Reel) (v : DWord) (s : State) : Out :=
  .next (s.commandLater who .r2 0 0 (Adr.REEL_EXP n.val) (fun s => s.reelExpWrite who n.val v.toNat))

/-- EXPRESS_FRAME_START. -/
def execExpressFrameStart (n : Reel) (s : State) : Out := .next (s.expressStart n.val)

/-- EXPRESS_ALLOWANCE_OPEN. -/
def execExpressAllowanceOpen (n : Reel) (s : State) : Out := .next (s.allowanceOpen n.val)

/-- EXPRESS_FRAME_RETURN. -/
def execExpressFrameReturn (n : Reel) (intact : Bool) (acks : BitVec 16) (s : State) : Out :=
  .next (s.expressReturn n.val intact acks.toNat)

/-- LOCK_LOSS. -/
def execLockLoss (n : Reel) (s : State) : Out := .next (s.lockLoss n.val)

/-- LOCK_REGAIN. -/
def execLockRegain (n : Reel) (s : State) : Out := .next (s.lockRegain n.val)

/-- LOSS_SET_RECEIVE. -/
def execLossSetReceive (n : Reel) (pos : BitVec 6) (s : State) : Out := .next (s.lossSet n.val pos.toNat)

/-- EVENT_SET_RECEIVE. -/
def execEventSetReceive (n : Reel) (pos : BitVec 6) (s : State) : Out := .next (s.eventSet n.val pos.toNat)

end Sys2Proof.Machine
end

