-- ==== Sys2Proof/Machine/Relay.lean ====
section
/-!
DEFINITION. The relay ports (chapter 14): link states and training (R509 to R511, R535), letters and their checks (R512 to
R515), routes, lanes and credits (R516 to R524), the remote window (R526 to R529) and time letters (R91 to R94, R532 to
R534).
-/

namespace Sys2Proof.Machine

/-! ### Letters on the line (R512 to R515) -/

/-- The 16 header bytes and the payload. -/
def Letter.body (l : Letter) : List Byte :=
  leBytes 4 (l.kind * 2 ^ 28 + l.dest % 4096 * 2 ^ 16 + l.src % 4096) ++
  leBytes 4 (bnat l.urg * 2 ^ 31 + l.hops % 256 * 2 ^ 16 + l.tag % 256 * 256) ++
  leBytes 4 l.arg ++ leBytes 4 (l.rlen * 2 ^ 16 + l.payload.length) ++ l.payload

/-- A letter as a frame: with its CRC-32C. -/
def Letter.frame (l : Letter) : List Byte := l.body ++ leBytes 4 (crc32c l.body)

/-- A word of a frame. -/
def frameWord (f : List Byte) (i : Nat) : Nat := leVal ((f.drop (4 * i)).take 4)

/-- The lane that a frame's header names. -/
def frameUrgent (f : List Byte) : Bool := getBit (frameWord f 1) 31

/-- Whether TAG, RLEN, LEN and the fields that a kind fixes at 0 follow R513. -/
def kindFits (kind tag rlen len dest hops arg : Nat) : Bool :=
  match kind with
  | 0 => tag == 0 && rlen == 0 && 1 ≤ len && len ≤ 256
  | 1 => tag < 64 && 1 ≤ rlen && rlen ≤ 256 && len == 0
  | 2 => tag < 64 && rlen == 0 && 1 ≤ len && len ≤ 256
  | 3 => tag == 0 && rlen == 0 && len == 0
  | 4 => tag == 0 && rlen == 0 && len == 48 && dest == 0 && hops == 0 && arg == 0
  | _ => false

/-- The letter that a frame carries; none when it is malformed (R515). -/
def parseLetter (f : List Byte) : Option Letter :=
  let w0 := frameWord f 0
  let w1 := frameWord f 1
  let w2 := frameWord f 2
  let w3 := frameWord f 3
  let len := getBits w3 0 9
  let body := f.take (16 + len)
  if f.length = 20 + len ∧ leVal (f.drop (16 + len)) = crc32c body ∧
      getBits w0 12 4 = 0 ∧ getBits w1 24 7 = 0 ∧ getBits w1 0 8 = 0 ∧ getBits w3 25 7 = 0 ∧ getBits w3 9 7 = 0 ∧
      kindFits (getBits w0 28 4) (getBits w1 8 8) (getBits w3 16 9) len (getBits w0 16 12) (getBits w1 16 8) w2 then
    some { kind := getBits w0 28 4, dest := getBits w0 16 12, src := getBits w0 0 12, urg := getBit w1 31,
           hops := getBits w1 16 8, tag := getBits w1 8 8, arg := w2, rlen := getBits w3 16 9,
           payload := body.drop 16 }
  else none

/-! ### Ports -/

def rlyDown : Nat := 0
def rlyTrain : Nat := 1
def rlyNotReady : Nat := 2
def rlyUp : Nat := 3
def rlyFenced : Nat := 4

/-- What the hub holds of a port. -/
def State.relay (s : State) (p : Nat) : RelayPort := mget {} s.relays p
def State.setRelay (s : State) (p : Nat) (x : RelayPort) : State := { s with relays := mset s.relays p x }

/-- RLY_PSTATn.STATE, and the state with it replaced. -/
def State.rlyState (s : State) (p : Nat) : Nat := s.get (Adr.RLY_PSTAT p) Bits.RLY_PSTAT_STATE
def State.setRlyState (s : State) (p x : Nat) : State := s.put (Adr.RLY_PSTAT p) Bits.RLY_PSTAT_STATE x

/-- Whether the relay PLL is locked. -/
def State.relayClock (s : State) : Bool := getBit s.plls 2 && !s.standby && !s.poreset

/-- Whether a relay port is fenced (R557). -/
def State.rlyIsFenced (s : State) (p : Nat) : Bool := s.bit Adr.FLT_FPORT (8 + p)

/-- The block's own postcode. -/
def State.postcode (s : State) : Nat := s.get Adr.RLY_ID Bits.RLY_ID_POSTCODE

/-- The flags of R539 with the codes of R542: bit of RLY_PSTATn. The report's detail is RLY_CNTn. -/
def State.relayFlag (s : State) (p bit code : Nat) : State :=
  s.raiseFlag (Adr.RLY_PSTAT p) bit (srcRelay p code) ((s.reg (Adr.RLY_CNT p)).setWidth 32)

/-- A count of R524, which rings the port's DROP source, and its flag. -/
def State.dropCount (s : State) (p : Nat) (f : Fld) (bit code : Nat) : State :=
  ((s.countSat (Adr.RLY_CNT p) f).ringHw (289 + 4 * p)).relayFlag p bit code

def State.countUnsent (s : State) (p : Nat) : State := s.dropCount p Bits.RLY_CNT_UNSENT 3 0x24
def State.countHop (s : State) (p : Nat) : State := s.dropCount p Bits.RLY_CNT_HOPCNT 4 0x23
def State.countBad (s : State) (p : Nat) : State := s.dropCount p Bits.RLY_CNT_BADCNT 5 0x22

/-- A letter without a credit (R523): CVCNT, and CREDVIOL when it reaches DROPTH. -/
def State.countNoCredit (s : State) (p : Nat) : State :=
  let s := (s.countSat (Adr.RLY_CNT p) Bits.RLY_CNT_CVCNT).ringHw (289 + 4 * p)
  if s.get Adr.RLY_CTL Bits.RLY_CTL_DROPTH ≤ s.get (Adr.RLY_CNT p) Bits.RLY_CNT_CVCNT then s.relayFlag p 6 0x21 else s

/-! ### Buffers and credits (R521, R522) -/

def freeFld (urg : Bool) : Fld := if urg then Bits.RLY_CRED_UFREE else Bits.RLY_CRED_BFREE
def credFld (urg : Bool) : Fld := if urg then Bits.RLY_CRED_UCRED else Bits.RLY_CRED_BCRED

/-- A receive buffer is taken, and freed. -/
def State.takeBuf (s : State) (p : Nat) (urg : Bool) : State :=
  s.put (Adr.RLY_CRED p) (freeFld urg) (s.get (Adr.RLY_CRED p) (freeFld urg) - 1)

/-- A CREDIT set of a lane leaves at the next gap between letters, which lies between two commands (R508, R522). -/
def State.sendCredit (s : State) (p : Nat) (urg : Bool) (n : Nat) : State :=
  s.setRelay p (if urg then { s.relay p with credU := n } else { s.relay p with credB := n })

/-- A receive buffer frees; in UP its credit goes back to the partner (R522). -/
def State.freeBuf (s : State) (p : Nat) (urg : Bool) : State :=
  let s := s.put (Adr.RLY_CRED p) (freeFld urg) (min 16 (s.get (Adr.RLY_CRED p) (freeFld urg) + 1))
  if s.rlyState p = rlyUp then s.sendCredit p urg 1 else s

/-- Whether another copy of a time letter still waits at some port. -/
def State.copyWaits (s : State) (o : OutLetter) : Bool :=
  o.copy.isSome && s.relays.any (fun r => (r.2.urgent ++ r.2.bulk).any (fun x => x.copy == o.copy))

/-- The buffer that a letter which waits no more has held frees, with the last of its copies (R522). -/
def State.releaseOut (s : State) (o : OutLetter) : State :=
  match o.buf with
  | some p => if s.copyWaits o then s else s.freeBuf p o.let_.urg
  | none => s

/-! ### Routing (R516, R518, R519) -/

/-- A letter that waits for a port is dropped and counted there (R524). -/
def State.dropOut (s : State) (p : Nat) (o : OutLetter) : State := (s.countUnsent p).releaseOut o

/-- The route entry of a postcode in the active table. -/
def State.routeOf (s : State) (p : Nat) : Nat := getBits (s.reg (Adr.RLY_RTBLK (p / 8))).toNat (4 * (p % 8)) 4

/-- A letter waits at an output port, or is dropped where the port takes none (R524). -/
def State.enqueue (s : State) (p : Nat) (o : OutLetter) : State :=
  if s.rlyState p = rlyUp ∨ s.rlyState p = rlyNotReady then
    let r := s.relay p
    s.setRelay p (if o.let_.urg then { r with urgent := r.urgent ++ [o] } else { r with bulk := r.bulk ++ [o] })
  else s.dropOut p o

/-- The read that a tag stands for. -/
def State.readTag (s : State) (tag : Nat) : ReadTag := mget { who := .letter 0, arg := 0, len := 0 } s.readTags tag

/-- RLY_RDSTAT.OUTST: the reads that still await their reply. -/
def State.showReads (s : State) : State :=
  s.put Adr.RLY_RDSTAT Bits.RLY_RDSTAT_OUTST (s.readTags.countP (fun t => !t.2.late))

/-- A reply frees its tag and reaches the read that waits for it; one whose time has run out is dropped (R529). -/
def State.readReply (s : State) (tag : Nat) (ok : Bool) (bytes : List Byte) : State :=
  if mhas s.readTags tag then
    let t := s.readTag tag
    let s := ({ s with readTags := mdel s.readTags tag } : State).showReads
    if t.late then s else s.farAnswer t.who false t.arg t.len ok bytes
  else s

/-- The oldest letter of a lane and source among those of some kinds: no earlier letter of its lane and source waits. -/
def firstLetter (p : InLetter → Bool) : (seen : List (Bool × Nat)) → List InLetter → Option InLetter
  | _, [] => none
  | seen, x :: r =>
    let k := (x.let_.urg, x.let_.src)
    if p x && !seen.contains k then some x else firstLetter p (k :: seen) r

/-- A letter for this block leaves the inbox, and its buffer frees. -/
def State.inboxDrop (s : State) (x : InLetter) : State :=
  let s : State := { s with inbox := s.inbox.filter (fun y => y.id != x.id) }
  match x.port with
  | some p => s.freeBuf p x.let_.urg
  | none => s

/-- Read replies whose turn has come take effect (R531). -/
def State.takeReplies (s : State) : (n : Nat) → State
  | 0 => s
  | n + 1 =>
    match firstLetter (fun x => x.let_.kind == 2) [] s.inbox with
    | some x =>
      ((s.inboxDrop x).readReply x.let_.tag (x.let_.arg / 2 ^ 30 == 0) x.let_.payload).takeReplies n
    | none => s

/-- A letter for this block waits its turn behind those of its lane and source (R531); a reply takes effect as soon as it
has come. -/
def State.deliverLetter (s : State) (l : Letter) (port : Option Nat) : State :=
  let s : State :=
    { s with inbox := s.inbox ++ [{ id := s.letterId, let_ := l, port := port }], letterId := s.letterId + 1 }
  if l.kind = 2 then s.takeReplies s.inbox.length else s

/-- A letter of KIND 0 to 3 meets its route entry (R516). A locally made letter has no input port: where its count
falls is open. -/
def State.postLetter (s : State) (o : OutLetter) : State :=
  let r := s.routeOf o.let_.dest
  if r < 4 then s.enqueue r o
  else if r = 4 then s.deliverLetter o.let_ o.buf
  else match o.buf with
    | some p => s.dropOut p o
    | none => s.free.2.countUnsent (s.free.1.toNat % 4)

/-- A received letter that is for another block: HOPS (R518). -/
def State.relayOn (s : State) (p : Nat) (l : Letter) : State :=
  let r := s.routeOf l.dest
  if r = 4 ∨ 5 ≤ r then s.postLetter { let_ := l, buf := some p, inp := p }
  else if l.hops = 0 then (s.countHop p).freeBuf p l.urg
  else s.postLetter { let_ := { l with hops := l.hops - 1 }, buf := some p, inp := p }

/-! ### Stores through the remote window (R526 to R528) -/

/-- REMOTE_PC of an initiator (R526). -/
def State.remotePcOf (s : State) (who : Initiator) : Nat :=
  match who with
  | .engine g => (s.eng g.val).arch.remotePc.toNat
  | _ => (s.reg Adr.RLY_HOSTPC).toNat

/-- The remote address of a local one (R527). -/
def remoteAdr (pc a : Nat) : Nat := pc / 2 ^ 30 * 2 ^ 30 + (a - 0xC0000000) % 2 ^ 30

/-- The last letter of an initiator in a lane takes more bytes, when it is a write that the new one follows (R528). -/
def joinLast (who : Initiator) (dest arg : Nat) (bytes : List Byte) : List OutLetter → Option (List OutLetter)
  | [] => none
  | o :: r =>
    match joinLast who dest arg bytes r with
    | some r' => some (o :: r')
    | none =>
      if r.any (fun x => x.by_ == some who) then none
      else if o.by_ = some who ∧ o.let_.kind = 0 ∧ o.let_.dest = dest ∧ o.let_.arg + o.let_.payload.length = arg ∧
          o.let_.payload.length + bytes.length ≤ 256 then
        some ({ o with let_ := { o.let_ with payload := o.let_.payload ++ bytes } } :: r)
      else none

/-- A letter made here. -/
def State.localLetter (s : State) (who : Initiator) (l : Letter) : State :=
  s.postLetter
    { let_ := { l with src := s.postcode, hops := s.get Adr.RLY_CTL Bits.RLY_CTL_HOPS }, by_ := some who }

/-- A store of `n` bytes through the window with a REMOTE_PC, as a letter of its own: a doorbell letter or a write. -/
def State.storeLetter (s : State) (who : Initiator) (pc a n v : Nat) : State :=
  let arg := remoteAdr pc a
  if n = 4 ∧ arg = 0x30000800 then s.localLetter who { kind := 3, dest := pc % 4096, urg := true, arg := v % 4096 }
  else s.localLetter who { kind := 0, dest := pc % 4096, urg := getBit pc 29, arg := arg, payload := leBytes n v }

/-- The queue of the port by which a store goes, when the store joins the last letter of its initiator there (R528). -/
def State.joined (s : State) (who : Initiator) (pc a n v : Nat) : Option (List OutLetter) :=
  let arg := remoteAdr pc a
  let r := s.routeOf (pc % 4096)
  let port := s.relay r
  if n = 4 ∧ arg = 0x30000800 ∨ 4 ≤ r then none
  else joinLast who (pc % 4096) arg (leBytes n v) (if getBit pc 29 then port.urgent else port.bulk)

/-- Whether the hub's outgoing queue is full of locally made stores: its size is open (R528; log 131). -/
def State.hubFull (s : State) : Bool :=
  decide (Config.hubRoom < (s.relays.map (fun r => (r.2.urgent ++ r.2.bulk).countP (fun o => o.by_.isSome))).sum)

/-- A store through the window: whether its letter has entered the hub's outgoing queue (R528). One that has not waits
behind the others. -/
def State.remoteStore (s : State) (who : Initiator) (tell : MmWho) (pc a n v : Nat) : Bool × State :=
  let r := s.routeOf (pc % 4096)
  match if s.storeWait = [] then s.joined who pc a n v else none with
  | some q => (true, s.setRelay r (if getBit pc 29 then { s.relay r with urgent := q } else { s.relay r with bulk := q }))
  | none =>
    if s.storeWait ≠ [] ∨ s.hubFull then
      (false, { s with storeWait := s.storeWait ++ [⟨who, tell, pc, a, n, v⟩] })
    else (true, s.storeLetter who pc a n v)

/-- Stores that wait enter the queue while it has room, and are answered. -/
def State.admitStores (s : State) : (n : Nat) → State
  | 0 => s
  | n + 1 =>
    match s.storeWait with
    | [] => s
    | x :: rest =>
      if s.hubFull then s
      else
        let t : State := { s with storeWait := [] }
        let t := (t.remoteStore x.who x.tell x.pc x.adr x.len x.val).2
        ((({ t with storeWait := rest } : State).farAnswer x.tell true x.adr x.len true []).admitStores n)

/-- Room in the hub's outgoing queue has become free. -/
def State.hubRoom (s : State) : State := s.admitStores s.storeWait.length

/-! ### Entering and leaving UP (R511, R524) -/

/-- A port leaves UP, or another state in which letters wait for it, for a state `x` in which none do: its letters are dropped, its
credits are gone, and LINK rings when it was UP. -/
def State.portLeaves (s : State) (p x : Nat) : State :=
  let r := s.relay p
  let up := s.rlyState p == rlyUp
  let s := (s.setRlyState p x).setRelay p
    { r with urgent := [], bulk := [], row := 0, wait := false, step := 0, credU := 0, credB := 0 }
  let s := (s.put (Adr.RLY_CRED p) Bits.RLY_CRED_UCRED 0).put (Adr.RLY_CRED p) Bits.RLY_CRED_BCRED 0
  let s := s.put (Adr.RLY_PSTAT p) Bits.RLY_PSTAT_PNR 0
  let s := ((r.urgent ++ r.bulk).foldl (fun s o => s.dropOut p o) s).hubRoom
  if up then s.ringHw (288 + 4 * p) else s

/-- A port enters UP: it grants every free receive buffer, and LINK rings (R511). -/
def State.portUp (s : State) (p : Nat) : State :=
  let free (urg : Bool) : Nat := s.get (Adr.RLY_CRED p) (freeFld urg)
  (((s.setRlyState p rlyUp).sendCredit p true (free true)).sendCredit p false (free false)).ringHw (288 + 4 * p)

/-- The ordered set that a port sends when no letter and no link message of its own goes: its D1, D2 and D3 (R508, R509). -/
def State.linkSet (s : State) (p : Nat) : Option (Nat × Nat × Nat) :=
  let st := s.rlyState p
  if st = rlyTrain then some (0x01, (s.relay p).step * 16 + s.postcode / 256, s.postcode % 256)
  else if st = rlyNotReady ∨ st = rlyFenced then some (0x02, 0, 0)
  else none

/-- A port that is DOWN trains when EN is 1 and the relay PLL is locked (R509). -/
def State.relayLit (s : State) (p : Nat) : State :=
  if s.rlyState p = rlyDown ∧ s.get (Adr.RLY_PCTL p) Bits.RLY_PCTL_EN = 1 ∧ s.relayClock ∧ !s.fatal then
    s.setRlyState p rlyTrain
  else s

/-- A port goes DOWN: Standby, a restart, or EN 0. -/
def State.relayDark (s : State) (p : Nat) : State :=
  if s.rlyState p = rlyFenced then s else s.portLeaves p rlyDown

/-- The block has left BOOT: ports in NOTREADY come UP (R509). -/
def State.relaysReady (s : State) : State :=
  (List.range 4).foldl (fun s p => if s.rlyState p = rlyNotReady then s.portUp p else s) s

/-- A relay port is fenced, and released to TRAIN, whatever EN and the PLL say (R509, R553). -/
def State.fenceRelay (s : State) (p : Nat) : State :=
  if s.rlyIsFenced p then s else (s.setBit Adr.FLT_FPORT (8 + p)).portLeaves p rlyFenced
def State.releaseRelay (s : State) (p : Nat) : State :=
  if s.rlyIsFenced p then (s.clrBit Adr.FLT_FPORT (8 + p)).setRlyState p rlyTrain else s

/-- In the fatal state every port behaves as FENCED (R509, R563). -/
def State.relaysFatal (s : State) : State := (List.range 4).foldl (fun s p => s.portLeaves p rlyFenced) s

/-- RLY_LATn of the last 16 measurements: their mean; where half a unit is left, which way it is rounded is open (R535). -/
def State.setLat (s : State) (p : Nat) (lats : List Nat) : State :=
  let sum := lats.foldl (· + ·) 0
  let s := s.setRelay p { s.relay p with lats := lats }
  if sum % 2 = 0 then s.put (Adr.RLY_LAT p) Bits.RLY_LAT_LAT (sum / 2)
  else s.free.2.put (Adr.RLY_LAT p) Bits.RLY_LAT_LAT (sum / 2 + bnat (bitOf s.free.1 0))

/-- A measurement in half ns: the round trip in FBCLK without the turnaround in 2 ns units (R508, R535). -/
def latOf (m : BitVec 8 × BitVec 16) : Nat := m.2.toNat - 2 * m.1.toNat

/-- What the steps of a training leave: PEER from step 1, with LOOPBK when the partner sends the own postcode, and RLY_LATn
from the 16 exchanges of step 2, newest first (R510; DEDUCED, log 132). -/
def State.trainSteps (s : State) (p : Nat) (peer : Option Nat) (rounds : List (BitVec 8 × BitVec 16)) : State :=
  match peer with
  | none => s
  | some x =>
    let s := s.put (Adr.RLY_PSTAT p) Bits.RLY_PSTAT_PEER x
    if x = s.postcode then (s.setRelay p { s.relay p with step := 1 }).relayFlag p 7 0x20
    else if rounds.length = 16 then s.setLat p (rounds.map latOf) else s

/-- TRAINING_COMPLETE: the steps are through, and the port takes its next state; with the own postcode from the partner, or
without 16 exchanges, it stays in TRAIN (R509, R510). The first letter after it steps system time (R93); the training of
any port arms that step, as the spec does not say which link is meant (DESIGN CHOICE, log 118). -/
def State.trained (s : State) (p peer : Nat) (rounds : List (BitVec 8 × BitVec 16)) : State :=
  if s.rlyState p ≠ rlyTrain then s
  else
    let own := peer = s.postcode
    let s := s.trainSteps p (some peer) rounds
    if own ∨ rounds.length ≠ 16 then s
    else
      let s := { s.setRelay p { s.relay p with wait := false } with stepTime := true }
      if s.mode = modeBoot then s.setRlyState p rlyNotReady else s.portUp p

/-- TRAINING_TIMEOUT: 10 ms without completion, back to step 0 of TRAIN; what its steps have left stays (R509, R510). -/
def State.trainTimeout (s : State) (p : Nat) (peer : Option Nat) (rounds : List (BitVec 8 × BitVec 16)) : State :=
  if s.rlyState p ≠ rlyTrain then s
  else
    let s := s.trainSteps p peer rounds
    s.setRelay p { s.relay p with step := 0 }

/-- BLOCK_LOCK_LOSS in UP (R509, R511). -/
def State.blockLockLoss (s : State) (p : Nat) : State :=
  if s.rlyState p = rlyUp then (s.relayFlag p 0 0x27).portLeaves p rlyTrain else s

/-- A write of RLY_PCTLn: EN, the transmit settings, and RETRAIN from UP (R509, R537). -/
def State.pctlWrite (s : State) (p v : Nat) : State :=
  let a := Adr.RLY_PCTL p
  let s := s.setReg a (BitVec.ofNat 64 (bandN v 0xFFF01))
  let s := if getBit v 1 ∧ s.rlyState p = rlyUp then s.portLeaves p rlyTrain else s
  if getBit v 0 then s.relayLit p else if s.rlyState p = rlyDown then s else s.relayDark p

/-! ### Time letters (R91 to R94, R532 to R534) -/

/-- The payload of a time letter sampled now (R532). -/
def State.timePayload (s : State) (corr : Nat) : List Byte :=
  leBytes 8 s.time.toNat ++
  (List.range 4).flatMap (fun e =>
    leBytes 4 (s.angle e) ++ leBytes 4 (mget 0 s.regs (Adr.ANG_VEL e)).toNat) ++
  leBytes 4 corr ++
  leBytes 1 (maskOf 4 (fun e => s.get (Adr.ANG_STAT e) Bits.ANG_STAT_HOMED == 1) * 16 + maskOf 4 (fun e => s.still e)) ++
  leBytes 3 0

/-- The ports that RLY_TIME.FWD names. -/
def State.fwdPorts (s : State) : List Nat :=
  (List.range 4).filter (fun p => getBit (s.get Adr.RLY_TIME Bits.RLY_TIME_FWD) p)

/-- A letter as it leaves the block at a system time: a time letter's CORR takes the time that it has stayed (R533). -/
def OutLetter.leaving (o : OutLetter) (now : DWord) : Letter :=
  match o.corr with
  | some (c, since) =>
    let p := o.let_.payload
    { o.let_ with payload := p.take 40 ++ leBytes 4 (c + (now - since).toNat) ++ p.drop 44 }
  | none => o.let_

/-- TIME_LETTER_SEND: the source block samples, and a letter waits on every port of FWD; CORR of each runs from the sample
until its first symbol (R91, R533). -/
def State.timeSend (s : State) : State :=
  if s.get Adr.ANG_BCCTL Bits.ANG_BCCTL_ROLE ≠ 1 ∨ s.standby then s
  else
    let o : OutLetter :=
      { let_ := { kind := 4, src := s.postcode, urg := true, payload := s.timePayload 0 }, corr := some (0, s.time) }
    s.fwdPorts.foldl (fun s p => s.enqueue p o) s

/-- The latency of an input port in whole ns; the rounding of a part of a ns is open (R534). -/
def State.latNs (s : State) (p : Nat) : Nat × State :=
  let l := s.get (Adr.RLY_LAT p) Bits.RLY_LAT_LAT
  if l % 16 = 0 then (l / 16, s)
  else
    let f := s.free
    (l / 16 + bnat (bitOf f.1 0), f.2)

/-- A relay encoder takes the received angle, advanced over the delay, its velocity and its status bits (R92). The spec
does not say that byte 44 writes STILL and HOMED of a TYPE 2 encoder: STILL follows each letter, HOMED sets with its
bit, and DIR follows the velocity's sign (DESIGN CHOICE, log 119). -/
def State.letterAngle (s : State) (e : Nat) (pay : List Byte) (delay : Nat) : State :=
  if s.encType e ≠ 2 then s
  else
    let word (o : Nat) : Nat := leVal ((pay.drop o).take 4)
    let angle := word (8 + 8 * e)
    let vel := toSigned 32 (word (12 + 8 * e))
    let bits := leVal ((pay.drop 44).take 1)
    let still := getBit bits e
    let move : Int := if still then 0 else vel * (delay : Int)
    let whole := move.tdiv 4096
    let base := ofSigned 44 (((angle * 4096 : Nat) : Int) + whole)
    let st := Adr.ANG_STAT e
    let s := s.put st Bits.ANG_STAT_STILL (bnat still)
    let s := if getBit bits (4 + e) then s.put st Bits.ANG_STAT_HOMED 1 else s
    let s := if vel = 0 then s else s.put st Bits.ANG_STAT_DIR (bnat (vel < 0))
    (s.setEnc e { s.enc e with base := base, adv := move - whole * 4096, vel := vel, lettered := true }).showEnc e

/-- A follower steers its time by a letter (R92, R93). An error beyond the field of ANG_BCERR is open there. Where between
two SCLK ticks a stepped time stands is open: its count of FBCLK cycles starts at 0 (DESIGN CHOICE, log 49). -/
def State.letterTime (s : State) (sent delay : Nat) : State :=
  let ref := BitVec.ofNat 64 (sent + delay)
  let err := (s.time - ref).toInt
  let e := if -(2 ^ 31) ≤ err ∧ err < 2 ^ 31 then (ofSigned 32 err, s) else (s.free.1.toNat % 2 ^ 32, s.free.2)
  let s := e.2.setReg Adr.ANG_BCERR (BitVec.ofNat 64 e.1)
  let step := s.stepTime && (s.mode == modeBoot || s.mode == modeCommission || s.mode == modeTest)
  let s := if step then s.setTime ref else s
  let left : Int := if step then 0 else err
  let s := s.setTrim (BitVec.ofNat 64 (ofSigned 32 (slewTrim left)))
  { s with stepTime := false, clock := { s.clock with err := left, lost := false } }

/-- A time letter goes on by every port of FWD; its copies hold the receive buffer together, until the last has left or
been dropped (R522, R533). -/
def State.forwardTime (s : State) (l : Letter) (p corr : Nat) (since : DWord) : State :=
  let o : OutLetter := { let_ := l, buf := some p, inp := p, copy := some s.letterId, corr := some (corr, since) }
  let s : State := { s with letterId := s.letterId + 1 }
  let take (s : State) (q : Nat) : Bool := s.rlyState q == rlyUp || s.rlyState q == rlyNotReady
  let s := s.fwdPorts.foldl (fun s q => if take s q then s.enqueue q o else s.countUnsent q) s
  s.releaseOut o

/-- A time letter is used `elapsed` after its first symbol, and its copies wait for their ports `residence` after it (R533,
R534). -/
def State.timeLetter (s : State) (p : Nat) (l : Letter) (elapsed residence : Nat) : State :=
  let t := s.reg Adr.RLY_TIME
  if fldOf t Bits.RLY_TIME_INEN = 0 ∨ fldOf t Bits.RLY_TIME_INPORT ≠ p then s.freeBuf p l.urg
  else
    let s := s.ringHw (290 + 4 * p)
    if !s.follower then s.freeBuf p l.urg
    else
      let lat := s.latNs p
      let corr := leVal ((l.payload.drop 40).take 4)
      let delay := corr + lat.1 + elapsed
      let s := lat.2.letterTime (leVal (l.payload.take 8)) delay
      let s := (List.range 4).foldl (fun s e => s.letterAngle e l.payload delay) s
      s.forwardTime l p (corr + lat.1) (s.time - BitVec.ofNat 64 residence)

/-- BROADCAST_TIMEOUT (R94). -/
def State.broadcastTimeout (s : State) : State :=
  if !s.follower then s
  else
    let s := { s with clock := { s.clock with lost := true } }
    (List.range 4).foldl (fun s e =>
      if s.encType e = 2 then s.raiseFlag (Adr.ANG_STAT e) 7 0x4033 (BitVec.ofNat 32 e) else s) s

/-! ### Receiving and sending -/

/-- Whether a reply for this block answers its read with a payload of another length than RLEN (R513, R515). -/
def State.replyMisfits (s : State) (l : Letter) : Bool :=
  l.kind == 2 && s.routeOf l.dest == 4 && mhas s.readTags l.tag && (s.readTag l.tag).len != l.payload.length

/-- A letter's last symbol has arrived (R515, R518, R523). -/
def State.receive (s : State) (p : Nat) (f : List Byte) (times : Option (Nat × Nat)) : State :=
  if s.rlyState p ≠ rlyUp then s
  else
    let urg := frameUrgent f
    if s.get (Adr.RLY_CRED p) (freeFld urg) = 0 then s.countNoCredit p
    else
      let s := (s.takeBuf p urg).put (Adr.RLY_PSTAT p) Bits.RLY_PSTAT_PNR 0
      match parseLetter f with
      | none => (s.countBad p).freeBuf p urg
      | some l =>
        if l.kind = 4 then
          match times with
          | some (elapsed, residence) => s.timeLetter p l elapsed residence
          | none => s.free.2.timeLetter p l (s.free.1.toNat % 65536) (s.free.1.toNat % 65536)
        else if s.replyMisfits l then (s.countBad p).freeBuf p urg
        else s.relayOn p l

/-- Whether a waiting letter may start: its lane has a letter and a credit (R521). -/
def State.mayStart (s : State) (p : Nat) (urg : Bool) : Bool :=
  let r := s.relay p
  (if urg then r.urgent else r.bulk) != [] && 0 < s.get (Adr.RLY_CRED p) (credFld urg)

/-- The first letter that came by an input, and the others. -/
def takeInput (i : Nat) : List OutLetter → Option (OutLetter × List OutLetter)
  | [] => none
  | o :: r =>
    if o.inp = i then some (o, r)
    else (takeInput i r).map (fun x => (x.1, o :: x.2))

/-- The letter of a lane that goes next: the inputs are served in turn after the one served last, the letters of one input
in the order in which they arrived (R519, R520; DEDUCED, log 130). -/
def nextLetter (served : Nat) (q : List OutLetter) : Option (OutLetter × List OutLetter) :=
  (List.range 5).findSome? (fun k => takeInput ((served + 1 + k) % 5) q)

/-- LETTER_FORWARD: the next letter of a lane leaves the port, when the order of R520 lets it. -/
def State.forwardLetter (s : State) (p : Nat) (urg : Bool) : State :=
  let r := s.relay p
  let turn := if urg then r.row < 8 || !s.mayStart p false else !s.mayStart p true || 8 ≤ r.row
  if s.rlyState p ≠ rlyUp ∨ !s.mayStart p urg ∨ !turn then s
  else
    match nextLetter (if urg then r.servedU else r.servedB) (if urg then r.urgent else r.bulk) with
    | none => s
    | some (o, rest) =>
      let r := if urg then { r with urgent := rest, row := r.row + 1, servedU := o.inp }
        else { r with bulk := rest, row := 0, servedB := o.inp }
      let s := s.setRelay p { r with sent := (o.leaving s.time).frame }
      let s := s.put (Adr.RLY_CRED p) (credFld urg) (s.get (Adr.RLY_CRED p) (credFld urg) - 1)
      let s := (s.releaseOut o).hubRoom
      if o.let_.kind = 4 then s.ringHw (290 + 4 * p) else s

/-- LETTER_WAIT_TIMEOUT: the oldest letter of a lane has waited QTMO (R524). -/
def State.waitTimeout (s : State) (p : Nat) (urg : Bool) : State :=
  let r := s.relay p
  match if urg then r.urgent else r.bulk with
  | [] => s
  | o :: rest =>
    ((s.setRelay p (if urg then { r with urgent := rest } else { r with bulk := rest })).dropOut p o).hubRoom

/-- CREDIT_RECEIVE: a CREDIT set counts in UP. -/
def State.creditReceive (s : State) (p : Nat) (bulk : Bool) (n : Nat) : State :=
  if s.rlyState p ≠ rlyUp then s
  else
    let s := s.put (Adr.RLY_PSTAT p) Bits.RLY_PSTAT_PNR 0
    s.put (Adr.RLY_CRED p) (credFld !bulk) (min 16 (s.get (Adr.RLY_CRED p) (credFld !bulk) + n))

/-- NOTREADY_RECEIVE: shown in PNR. -/
def State.notReadyReceive (s : State) (p : Nat) : State :=
  if s.rlyState p = rlyDown then s else s.put (Adr.RLY_PSTAT p) Bits.RLY_PSTAT_PNR 1

/-- PING_SEND: in UP; the first sequence number is open (R535). -/
def State.pingSend (s : State) (p : Nat) : State :=
  if s.rlyState p ≠ rlyUp then s
  else
    let r := s.relay p
    match r.ping with
    | some q => s.setRelay p { r with ping := some ((q + 1) % 256), wait := true }
    | none =>
      let f := s.free
      f.2.setRelay p { r with ping := some (f.1.toNat % 256), wait := true }

/-- PING_RECEIVE: answered with a PONG of the same sequence number and the turnaround in 2 ns units (R508, R535). -/
def State.pingReceive (s : State) (p seq turn : Nat) : State :=
  if s.rlyState p = rlyDown then s else s.setRelay p { s.relay p with pong := some (seq, turn) }

/-- PONG_RECEIVE: a measurement; LAT is the mean of the last 16, those of the training among them (R535). -/
def State.pongReceive (s : State) (p seq : Nat) (m : BitVec 8 × BitVec 16) : State :=
  let r := s.relay p
  if s.rlyState p ≠ rlyUp ∨ !r.wait ∨ r.ping ≠ some seq then s
  else (s.setRelay p { r with wait := false }).setLat p ((latOf m :: r.lats).take 16)

/-! ### Reads through the remote window (R527, R529) -/

/-- A read letter with a tag of its own; which free tag is the model's choice (DESIGN CHOICE, log 25). -/
def State.sendRead (s : State) (tag : Nat) (w : ReadWait) : State :=
  let r := s.routeOf w.dest
  let t : ReadTag :=
    { who := w.who, arg := w.arg, len := w.len, dest := w.dest, urg := w.urg, port := if r < 4 then some r else none }
  let s := ({ s with readTags := mset s.readTags tag t } : State).showReads
  let l : Letter :=
    { kind := 1, dest := w.dest, src := s.postcode, urg := w.urg, hops := s.get Adr.RLY_CTL Bits.RLY_CTL_HOPS, tag := tag,
      arg := w.arg, rlen := w.len }
  s.postLetter { let_ := l }

/-- Reads that wait for a tag take one. -/
def State.admitReads (s : State) : State :=
  match s.readWait, firstBelow 64 (fun t => !mhas s.readTags t) with
  | w :: rest, some t => ({ s with readWait := rest } : State).sendRead t w
  | _, _ => s

/-- A load of `n` bytes through the window, for whoever waits for it. -/
def State.remoteLoad (s : State) (who : Initiator) (m : MmWho) (a n : Nat) : State :=
  let pc := s.remotePcOf who
  let w : ReadWait := { who := m, dest := pc % 4096, urg := getBit pc 29, arg := remoteAdr pc a, len := n }
  ({ s with readWait := s.readWait ++ [w] } : State).admitReads

/-- READ_TIMEOUT (R529): ERR, TMOCNT, and RDTMO of the port by which the read left; a read that left by none has no
port, and whose flag it sets is open. The tag stays held until the late reply has come and been dropped, so that no other
read takes that reply (DESIGN CHOICE, log 120). -/
def State.readTimeout (s : State) (tag : Nat) : State :=
  let t := s.readTag tag
  if mhas s.readTags tag && !t.late then
    let s := s.countSat Adr.RLY_RDSTAT Bits.RLY_RDSTAT_TMOCNT
    let p := match t.port with
      | some p => (p, s)
      | none => (s.free.1.toNat % 4, s.free.2)
    let s := p.2.relayFlag p.1 1 0x26
    let s := ({ s with readTags := mset s.readTags tag { t with late := true } } : State).showReads
    (s.farAnswer t.who false t.arg t.len false []).admitReads
  else s

/-- READ_REPLY_RECEIVE: the reply of a read's block on its lane (R529 to R531). -/
def State.replyArrives (s : State) (tag status : Nat) (v : DWord) : State :=
  let t := s.readTag tag
  if mhas s.readTags tag then
    s.deliverLetter
      { kind := 2, dest := s.postcode, src := t.dest, urg := t.urg, tag := tag, arg := status * 2 ^ 30,
        payload := leBytes t.len v.toNat } none
  else s

/-! ### The commands -/

/-- TIME_LETTER_SEND. -/
def execTimeLetterSend (s : State) : Out := .next s.timeSend

/-- TIME_LETTER_RECEIVE. -/
def execTimeLetterReceive (p : Port) (f : List Byte) (elapsed residence : BitVec 16) (s : State) : Out :=
  .next (s.receive p.val f (some (elapsed.toNat, residence.toNat)))

/-- BROADCAST_TIMEOUT. -/
def execBroadcastTimeout (s : State) : Out := .next s.broadcastTimeout

/-- TRAINING_COMPLETE. -/
def execTrainingComplete (p : Port) (peer : BitVec 12) (rounds : List (BitVec 8 × BitVec 16)) (s : State) : Out :=
  .next (s.trained p.val peer.toNat rounds)

/-- TRAINING_TIMEOUT. -/
def execTrainingTimeout (x : Training) (s : State) : Out :=
  .next (s.trainTimeout x.port.val (x.peer.map BitVec.toNat) x.rounds)

/-- BLOCK_LOCK_LOSS. -/
def execBlockLockLoss (p : Port) (s : State) : Out := .next (s.blockLockLoss p.val)

/-- RETRAIN: a write of RLY_PCTLn with RETRAIN 1 and its other fields as they stand. -/
def execRetrain (who : Initiator) (p : Port) (s : State) : Out :=
  .next (s.commandOk who .r1 0 (Adr.RLY_PCTL p.val)
    (fun s => s.pctlWrite p.val ((s.reg (Adr.RLY_PCTL p.val)).toNat ||| 2)))

/-- LETTER_RECEIVE. -/
def execLetterReceive (p : Port) (f : List Byte) (s : State) : Out := .next (s.receive p.val f none).admitReads

/-- LETTER_FORWARD. -/
def execLetterForward (p : Port) (urg : Bool) (s : State) : Out := .next (s.forwardLetter p.val urg)

/-- LETTER_WAIT_TIMEOUT. -/
def execLetterWaitTimeout (p : Port) (urg : Bool) (s : State) : Out := .next (s.waitTimeout p.val urg)

/-- CREDIT_RECEIVE. -/
def execCreditReceive (p : Port) (bulk : Bool) (n : BitVec 5) (s : State) : Out :=
  .next (s.creditReceive p.val bulk n.toNat)

/-- NOTREADY_RECEIVE. -/
def execNotreadyReceive (p : Port) (s : State) : Out := .next (s.notReadyReceive p.val)

/-- PING_SEND. -/
def execPingSend (p : Port) (s : State) : Out := .next (s.pingSend p.val)

/-- PING_RECEIVE. -/
def execPingReceive (p : Port) (x : Ping) (s : State) : Out := .next (s.pingReceive p.val x.seq.toNat x.turn.toNat)

/-- PONG_RECEIVE. -/
def execPongReceive (p : Port) (seq turn : BitVec 8) (round : BitVec 16) (s : State) : Out :=
  .next (s.pongReceive p.val seq.toNat (turn, round))

/-- How an initiator's access to the window is answered before it becomes a letter. -/
def State.windowCode (s : State) (who : Initiator) (a n : Nat) (write : Bool) : Code :=
  match s.portCode who a write with
  | .ok => if a < 0xC0000000 ∨ a % n ≠ 0 then .err else .ok
  | c => c

/-- REMOTE_WRITE: posted, answered OK when its letter has entered the hub's outgoing queue (R528). -/
def execRemoteWrite (who : Initiator) (a : Word) (size : Fin 4) (v : DWord) (s : State) : Out :=
  match s.windowCode who a.toNat (2 ^ size.val) true with
  | .ok =>
    let n := 2 ^ size.val
    let r := s.remoteStore who (.port who 0 n) (s.remotePcOf who) a.toNat n v.toNat
    .next (if r.1 then r.2.reply who .ok a.toNat else r.2)
  | c => .next (s.reply who c a.toNat)

/-- REMOTE_READ; through the debug master it cannot be peeked (R642). -/
def execRemoteRead (who : Initiator) (a : Word) (size : Fin 4) (s : State) : Out :=
  match s.windowCode who a.toNat (2 ^ size.val) false with
  | .ok =>
    if who = .debug then .next ((s.put Adr.DBG_STAT Bits.DBG_STAT_NOPEEK 1).answer who .ok)
    else .next (s.remoteLoad who (.port who 0 (2 ^ size.val)) a.toNat (2 ^ size.val))
  | c => .next (s.answer who c)

/-- READ_REPLY_RECEIVE. -/
def execReadReplyReceive (tag : BitVec 6) (status : BitVec 2) (v : DWord) (s : State) : Out :=
  .next (s.replyArrives tag.toNat status.toNat v).admitReads

/-- READ_TIMEOUT. -/
def execReadTimeout (tag : BitVec 6) (s : State) : Out := .next (s.readTimeout tag.toNat)

end Sys2Proof.Machine
end

