-- ==== Sys2Proof/Machine/Fault.lean ====
section
/-!
DEFINITION. The fault collector (R546 to R552), watchdogs (R558 to R561), the fatal state (R562 to R564), ALIVE and SAFE
(R565 to R568), and the SCLK tick.
-/

namespace Sys2Proof.Machine

/-! ### The fatal state (R562, R563) -/

/-- Every tile. -/
def allTiles : List Tile := List.finRange 12

/-- The block enters the fatal state: FATAL, every tile fenced, every relay port as FENCED, SAFE sets on every reel. -/
def State.enterFatal (s : State) : State :=
  let s := s.put Adr.BLK_MODE Bits.BLK_MODE_FATAL 1
  let s := allTiles.foldl (fun s t => s.fenceTile t) s
  let s := (List.range 8).foldl (fun s n => s.setReel n { s.reel n with pass := none }) s
  s.relaysFatal.reelsStop true

/-! ### Records (R547 to R549) -/

/-- The registers of the record of a class: 0 C, 1 U, 2 F. -/
def firstSrc (c : Nat) : Nat := Adr.FLT_FIRST_SRC c
def firstDet (c : Nat) : Nat := firstSrc c + 4
def firstTime (c : Nat) : Nat := firstSrc c + 8

/-- V of a record. -/
def State.recordHeld (s : State) (c : Nat) : Bool := s.bit (firstSrc c) 31

/-- A record latches: V, ESC, OCLS, the source ID, the detail and the time. -/
def State.latch (s : State) (c src : Nat) (det : Word) (esc : Bool) (ocls : Nat) : State :=
  let v := 2 ^ 31 + bnat esc * 2 ^ 29 + ocls * 2 ^ 16 + src % 65536
  ((s.setReg (firstSrc c) (BitVec.ofNat 64 v)).setReg (firstDet c) (det.setWidth 64)).setReg (firstTime c) s.time

/-- A later fault meets the record. -/
def State.overrun (s : State) (c : Nat) : State := s.setBit (firstSrc c) 30

/-- The tile of a keeper call (R552). -/
def State.callTile (s : State) (src : Nat) : Option Nat :=
  let k := s.get Adr.FLT_CTL Bits.FLT_CTL_KTILE
  if src / 256 < 12 ∧ !s.tileFenced (src / 256) then some (src / 256)
  else if !s.tileFenced k then some k
  else firstBelow 12 (fun t => !s.tileFenced t)

/-- A keeper call: PEND and COUNT of one tile, which wakes (R552, R583). -/
def State.callKeeper (s : State) (src : Nat) : State :=
  match s.callTile src with
  | some t =>
    ((s.countSat (Adr.TIL_KCALL t) Bits.TIL_KCALL_COUNT).put (Adr.TIL_KCALL t) Bits.TIL_KCALL_PEND 1).wake t
  | none => s

/-- `fatal` of R548. -/
def State.fatalFault (s : State) (src : Nat) (det : Word) (cls : Nat) (esc : Bool) : State :=
  (if s.recordHeld 2 then s.overrun 2 else s.latch 2 src det esc cls).enterFatal

/-- Whether a record was latched less than GRACE ticks ago (R548). -/
def State.withinGrace (s : State) (c : Nat) : Bool :=
  (s.time - s.reg (firstTime c)).toNat < s.get Adr.FLT_CTL Bits.FLT_CTL_GRACE * 40

/-- A fault presented at class U (R548, R626). -/
def State.collectU (s : State) (src : Nat) (det : Word) (cls : Nat) (esc : Bool) : State :=
  let s := s.countSat Adr.FLT_CNT Bits.FLT_CNT_UCNT
  if !s.recordHeld 1 then (s.latch 1 src det esc cls).callKeeper src
  else
    let s := s.overrun 1
    if s.mode = modeBoot ∨ s.withinGrace 1 then s else s.fatalFault src det cls true

/-- A fault presented at class C. -/
def State.collectC (s : State) (src : Nat) (det : Word) : State :=
  let s := s.countSat Adr.FLT_CNT Bits.FLT_CNT_CCNT
  if !s.recordHeld 0 then (s.latch 0 src det false 0).callKeeper src
  else
    let s := s.overrun 0
    if s.mode = modeBoot ∨ s.withinGrace 0 then s else s.collectU src det 0 true

/-- `collect` of R548. -/
def State.collect (s : State) (r : Report) : State :=
  match r.cls with
  | 0 => s.collectC r.src r.det
  | 1 => s.collectU r.src r.det 1 false
  | _ => s.fatalFault r.src r.det 2 false

/-- Whether the collector accepts a report at the head of the queue (R544): not from a tile in Off, nor from a fenced
tile unless it is, or stands before, that tile's last. -/
def State.accepts (s : State) (r : Report) (rest : List Report) : Bool :=
  let t := r.src / 256
  12 ≤ t || (s.sleep t != 3 && (!s.tileFenced t || r.last || rest.any (fun x => x.last && x.from_ t)))

/-- Whether a report is the first on its tile's report path; a block source has no path to share (R543). -/
def Report.leads (rs : List Report) (r : Report) : Bool :=
  12 ≤ r.src / 256 || rs.find? (fun x => x.from_ (r.src / 256)) == some r

/-- The report that is handled next: of those of the oldest FBCLK cycle, the one with the lowest source ID, each tile's in
the order of its path (R550; DEDUCED, log 129). -/
def nextReport (rs : List Report) : Option Report :=
  match rs with
  | [] => none
  | h :: _ =>
    rs.foldl (fun best r =>
      if r.cyc = h.cyc ∧ r.leads rs then
        match best with
        | none => some r
        | some b => if r.src < b.src then some r else some b
      else best) none

/-- FAULT_COLLECT: the report that is due. -/
def State.faultCollect (s : State) : State :=
  match nextReport s.reports with
  | none => s
  | some r =>
    let rest := s.reports.erase r
    let ok := s.accepts r rest
    let s : State := { s with reports := rest }
    if ok then s.collect r else s

/-- A write of FLT_ACK (R549). -/
def State.fltAck (s : State) (v : Nat) : State :=
  let ack (s : State) (c : Nat) : State := (s.clrBit (firstSrc c) 31).clrBit (firstSrc c) 30
  let s := if getBit v 0 then ack s 0 else s
  if getBit v 1 then ack s 1 else s

/-- A write of FLT_TEST (R548). -/
def State.fltTest (s : State) (v : Nat) : State :=
  let cls := getBits v 30 2
  if (s.mode = modeCommission ∨ s.mode = modeTest) ∧ cls ≤ 2 then s.report cls 0x5044 (BitVec.ofNat 32 (v % 65536))
  else s.put Adr.FLT_FSTAT Bits.FLT_FSTAT_TREF 1

/-! ### Inputs (R544, R546) -/

/-- TILE_WIRE_FAULT: the pair or the report path of a tile has failed; not of a tile in Off or fenced. -/
def State.tileWireFault (s : State) (t : Tile) : State :=
  if s.sleep t.val = 3 ∨ s.tileFenced t.val then s
  else
    { s.sourceFenceTile t (srcTile t.val 0x0D) 0 with
      health := { s.health with wired := t.val :: s.health.wired.filter (· != t.val) } }

/-- FLT_IN enters a state that two samples agree on. -/
def State.pairState (s : State) (p n : Bool) : State :=
  let h := s.health
  if p ∧ !n then { s with health := { h with host := false, wire := false } }
  else if !p ∧ n then
    if h.host then s
    else
      let s : State := { s with health := { h with host := true } }
      let c := s.get Adr.FLT_INCFG Bits.FLT_INCFG_CLASS
      if c = 0 then s else s.report (c - 1) 0x5041
  else if h.wire then s
  else ({ s with health := { h with wire := true } } : State).report 1 0x5042 (BitVec.ofNat 32 (2 * bnat p + bnat n))

/-- HOST_FAULT_INPUT: the sample of one SCLK tick. -/
def State.hostFaultInput (s : State) (p n : Bool) : State :=
  let s := s.put Adr.FLT_FSTAT Bits.FLT_FSTAT_INPAIR (2 * bnat p + bnat n)
  if !s.health.started then s
  else
    let last := s.health.sample
    let s : State := { s with health := { s.health with sample := some (p, n) } }
    if last = some (p, n) then s.pairState p n else s

/-! ### Watchdogs (R558 to R561, R650) -/

/-- Whether the monitor holds an engine's watchdog (R650). -/
def State.wdogHeld (s : State) (g : Nat) : Bool :=
  s.get Adr.DBG_CTL Bits.DBG_CTL_WDHOLD == 1 && (s.eng g).inMon && s.blockStill

/-- Whether the watchdog of an engine counts. -/
def State.wdogCounts (s : State) (g : Nat) : Bool :=
  let e := s.eng g
  getBit (s.get (Adr.TIL_WDCFG (tileOf g)) Bits.TIL_WDCFG_EN) (engOf g) && s.placed g && e.hold != .waiti &&
    !s.engFenced g && !s.tileFenced (tileOf g) && s.sleep (tileOf g) != 3 &&
    !s.wdogHeld g

/-- The watchdog of an engine, in SCLK ticks. -/
def State.wdogReload (s : State) (t : Nat) : Nat := s.get (Adr.TIL_WDCFG t) Bits.TIL_WDCFG_RELOAD * 32

/-- One tick of an engine's watchdog; its last tick is ENGINE_WATCHDOG_EXPIRY. A watchdog that does not count while the
monitor holds it stands reloaded (R650). -/
def State.wdogTick (s : State) (g : Nat) : State :=
  if s.wdogCounts g then s.modEng g (fun e => { e with wdog := max 1 (e.wdog - 1) })
  else if s.wdogHeld g then s.modEng g (fun e => { e with wdog := s.wdogReload (tileOf g) })
  else s

/-- ENGINE_WATCHDOG_EXPIRY: the engine is fenced, for E0 the tile (R542, R555). -/
def State.wdogExpiry (s : State) (g : Eng) : State :=
  if s.wdogCounts g.val then
    ((s.modEng g.val (fun e => { e with wdog := 0 })).setBit (Adr.TIL_WDEXP (tileOf g.val)) (engOf g.val)).sourceFenceEng
      g (srcTile (tileOf g.val) 0x0B) (BitVec.ofNat 32 g.val)
  else s

/-- A write of TIL_WDSVC: the writing engine's watchdog reloads. -/
def State.wdsvc (s : State) (who : Initiator) (t : Nat) : State :=
  match who with
  | .engine g => s.modEng g.val (fun e => { e with wdog := s.wdogReload t })
  | _ => s

/-- A write of TIL_WDCFG: a watchdog whose EN rises reloads. -/
def State.wdcfgWrite (s : State) (t v : Nat) : State :=
  let a := Adr.TIL_WDCFG t
  let old := s.get a Bits.TIL_WDCFG_EN
  let s := s.setReg a (BitVec.ofNat 64 (s.writtenAt a v))
  (List.range 16).foldl (fun s e =>
    if getBit v e ∧ !getBit old e then s.modEng (16 * t + e) (fun x => { x with wdog := s.wdogReload t }) else s) s

/-- Whether the block watchdog counts: from the start of ALIVE's count, not in Standby, BOOT or the fatal state. -/
def State.blkWdogCounts (s : State) : Bool :=
  s.get Adr.BLK_WDCFG Bits.BLK_WDCFG_EN == 1 && s.health.started && !s.standby && s.mode != modeBoot && !s.fatal

/-- The block watchdog reloads. -/
def State.blkWdogReload (s : State) : State :=
  { s.put Adr.BLK_WDCNT Bits.BLK_WDCNT_COUNT (s.get Adr.BLK_WDCFG Bits.BLK_WDCFG_RELOAD) with
    health := { s.health with ticks := 0 } }

/-- A write of BLK_WDCFG: EN going to 1 starts the count from RELOAD. -/
def State.blkWdcfgWrite (s : State) (v : Nat) : State :=
  let a := Adr.BLK_WDCFG
  let was := s.get a Bits.BLK_WDCFG_EN
  let s := s.setReg a (BitVec.ofNat 64 (s.writtenAt a v))
  if was = 0 ∧ s.get a Bits.BLK_WDCFG_EN = 1 then s.blkWdogReload else s

/-- Whether every tile of MASK has serviced the watchdog or is excused: fenced or in Off (R560). -/
def State.allSeen (s : State) : Bool :=
  let mask := s.get Adr.BLK_WDCFG Bits.BLK_WDCFG_MASK
  let seen := s.get Adr.BLK_WDOG Bits.BLK_WDOG_SEEN
  (List.range 12).all (fun t => !getBit mask t || getBit seen t || s.tileFenced t || s.sleep t == 3)

/-- One SCLK tick of the block watchdog; its last unit is BLOCK_WATCHDOG_EXPIRY. -/
def State.blkWdogTick (s : State) : State :=
  if !s.blkWdogCounts then s
  else if s.allSeen then (s.put Adr.BLK_WDOG Bits.BLK_WDOG_SEEN 0).blkWdogReload
  else
    let k := s.health.ticks + 1
    if k < 1024 then { s with health := { s.health with ticks := k } }
    else
      { s.put Adr.BLK_WDCNT Bits.BLK_WDCNT_COUNT (max 1 (s.get Adr.BLK_WDCNT Bits.BLK_WDCNT_COUNT - 1)) with
        health := { s.health with ticks := 0 } }

/-- BLOCK_WATCHDOG_EXPIRY: class F (R561). -/
def State.blkWdogExpiry (s : State) : State :=
  if s.blkWdogCounts then
    (s.put Adr.BLK_WDCNT Bits.BLK_WDCNT_COUNT 0).report 2 0x5040 (BitVec.ofNat 32 (s.get Adr.BLK_WDOG Bits.BLK_WDOG_SEEN))
  else s

/-- A write of BLK_WDOG: the key from an engine sets its tile's SEEN (R560). -/
def State.blkWdogWrite (s : State) (who : Initiator) (v : Nat) : State :=
  match who with
  | .engine g =>
    if getBits v 16 16 = 0xC35A then s.put Adr.BLK_WDOG ⟨tileOf g.val, 1⟩ 1 else s
  | _ => s

/-! ### ALIVE, SAFE and the SCLK tick -/

/-- ALIVE_TOGGLE: 1,024 SCLK ticks have passed since its last edge or its start (R565). -/
def State.aliveToggle (s : State) : State :=
  if s.health.started ∧ !s.fatal ∧ !s.poreset then
    { s with health := { s.health with alive := !s.health.alive } }
  else s

/-- ALIVE as its pin shows it: low in reset and under the pin guard (R565, R677). -/
def State.alivePin (s : State) : Bool := s.health.alive && !s.poreset && s.powerGood == 7

/-- Whether the SAFE pair is asserted (R566). -/
def State.safeAsserted (s : State) : Bool :=
  s.poreset || s.powerGood != 7 || s.mode == modeBoot || s.mode == modeTest || s.mode == modeRecovery || s.fatal ||
    s.get Adr.FLT_SAFE Bits.FLT_SAFE_FORCE == 1 || s.standby

/-- The watch of FLT_IN, ALIVE's count and the block watchdog start at the first SCLK tick outside BOOT (R565); the
watchdogs count. -/
def State.watchTick (s : State) : State :=
  let s := if !s.health.started ∧ s.mode ≠ modeBoot then
      { s with health := { s.health with started := true, sample := none } } else s
  ((List.range 192).foldl State.wdogTick s).blkWdogTick

/-! ### The commands -/

/-- FAULT_COLLECT. -/
def execFaultCollect (s : State) : Out := .next s.faultCollect

/-- TILE_WIRE_FAULT. -/
def execTileWireFault (t : Tile) (s : State) : Out := .next (s.tileWireFault t)

/-- HOST_FAULT_INPUT. -/
def execHostFaultInput (p n : Bool) (s : State) : Out := .next (s.hostFaultInput p n)

/-- FLT_ACK: a write of the register. -/
def execFltAck (who : Initiator) (v : Word) (s : State) : Out :=
  .next (s.commandOk who .r0 0 Adr.FLT_ACK (fun s => s.fltAck v.toNat))

/-- FLT_TEST: a write of the register. -/
def execFltTest (who : Initiator) (v : Word) (s : State) : Out :=
  .next (s.commandOk who .r0 0 Adr.FLT_TEST (fun s => s.fltTest v.toNat))

/-- TIL_WDSVC: a write of the register. -/
def execTilWdsvc (who : Initiator) (t : Tile) (s : State) : Out :=
  .next (s.commandOk who .tileEng t.val (Adr.TIL_WDSVC t.val) (fun s => s.wdsvc who t.val))

/-- ENGINE_WATCHDOG_EXPIRY. -/
def execEngineWatchdogExpiry (g : Eng) (s : State) : Out := .next (s.wdogExpiry g)

/-- BLK_WDOG: a write of the register. -/
def execBlkWdog (who : Initiator) (v : Word) (s : State) : Out :=
  .next (s.commandOk who .wdog 0 Adr.BLK_WDOG (fun s => s.blkWdogWrite who v.toNat))

/-- BLOCK_WATCHDOG_EXPIRY. -/
def execBlockWatchdogExpiry (s : State) : Out := .next s.blkWdogExpiry

/-- ALIVE_TOGGLE. -/
def execAliveToggle (s : State) : Out := .next s.aliveToggle

end Sys2Proof.Machine
end

