-- ==== Sys2Proof/Machine/Memories.lean ====
section
/-!
DEFINITION. Scrubbing (R464), write-backs of corrections (R461), march operations (R467 to R472), spares and repair
(R473, R476 to R478).

A memory unit is a tile, 0 to 11, or the library, 12. Memory is kept by logical address: which physical row or bank
stands behind an address is the state of the repair registers alone.
-/

namespace Sys2Proof.Machine

/-! ### Units -/

/-- The library's unit number. -/
def libUnit : Nat := 12

/-- The march registers of a unit (R480, R481). -/
def unitStat (u : Nat) : Nat := if u < 12 then Adr.TIL_MEMSTAT u else Adr.BLK_LIBSTAT
def unitMarchst (u : Nat) : Nat := if u < 12 then Adr.TIL_MARCHST u else Adr.BLK_LIBMARCHST
def unitFail (u i : Nat) : Nat := if u < 12 then Adr.TIL_MFAIL u i else Adr.BLK_LMFAIL i

/-- Whether a unit's march engine runs an operation of software or of the boot sequencer. -/
def State.marching (s : State) (u : Nat) : Bool := s.get (unitMarchst u) Bits.TIL_MARCHST_BUSY == 1

/-- The unit whose memory holds a global address. -/
def unitOf (a : Nat) : Nat := (memTile a).getD libUnit

/-- Whether a GO word of a unit names the memory at an address. -/
def goTarget (u : Nat) (w : Word) (a : Nat) : Bool :=
  unitOf a == u && (if u < 12 then marchTarget w (a % 0x1000000) else libTarget w a)

/-! ### Physical rows and banks (R449, R450, R473) -/

/-- The physical bank of a logical bank, and the bank that no logical bank maps to. -/
def State.remap (s : State) (t l : Nat) : Nat := s.get (Adr.TIL_REMAP t (l / 6)) ⟨5 * (l % 6), 5⟩
def State.setRemap (s : State) (t l p : Nat) : State := s.put (Adr.TIL_REMAP t (l / 6)) ⟨5 * (l % 6), 5⟩ p
def State.freeBank (s : State) (t : Nat) : Option Nat :=
  firstBelow 32 (fun p => (List.range 31).all (fun l => s.remap t l != p))

/-- A spare's register: of a scratchpad, or of a library bank. -/
def spareReg (u x i : Nat) : Nat := if u < 12 then Adr.TIL_SPR u x i else Adr.BLK_LRP x i
def spareRowFld (u : Nat) : Fld := if u < 12 then Bits.TIL_SPR_ROW else Bits.BLK_LRP_ROW

/-- The rows that a scratchpad and a library bank address; spare `i` stands behind them. -/
def rowCount (u : Nat) : Nat := if u < 12 then 1024 else 8192

/-- The spare that stands for a row, and the lowest spare neither taken nor BAD. -/
def State.spareFor (s : State) (u x row : Nat) : Option Nat :=
  firstBelow 16 (fun i => s.bit (spareReg u x i) 31 && s.get (spareReg u x i) (spareRowFld u) == row)
def State.freeSpare (s : State) (u x : Nat) : Option Nat :=
  firstBelow 16 (fun i => !s.bit (spareReg u x i) 31 && !s.bit (spareReg u x i) 30)

/-- A row goes to a spare; a spare that stood for it before is given up (DESIGN CHOICE, log 30). -/
def State.takeSpare (s : State) (u x row i : Nat) : State :=
  let s := match s.spareFor u x row with
    | some j => s.clrBit (spareReg u x j) 31
    | none => s
  (s.setBit (spareReg u x i) 31).put (spareReg u x i) (spareRowFld u) row

/-- Where a logical address lies: a scratchpad `e` or physical bank `16 + p` of a tile, or a library bank; and the row,
a spare counted behind the rows. -/
def State.physOf (s : State) (a : Nat) : Nat × Nat :=
  let u := unitOf a
  if u < 12 then
    let off := a % 0x1000000
    if off < 0x800000 then
      let e := off / 0x10000
      let row := off % 0x10000 / 64
      (e, match s.spareFor u e row with
        | some i => 1024 + i
        | none => row)
    else
      let w := (off - 0x800000) / 8
      (16 + s.remap u (w % 31), w / 31)
  else
    let r := (a - 0x20000000) / 64
    (r % 16, match s.spareFor u (r % 16) (r / 16) with
      | some i => 8192 + i
      | none => r / 16)

/-- The address of a logical row of a scratchpad or of a library bank, and of a logical bank's word at a row. -/
def rowAdr (u x row : Nat) : Nat :=
  if u < 12 then 0x10000000 + 0x1000000 * u + 0x10000 * x + 64 * row else 0x20000000 + 64 * (16 * row + x)
def bankAdr (t l row : Nat) : Nat := tileMemAdr t (8 * (31 * row + l))

/-! ### Reading through the code -/

/-- The units of coding of the listed marks, ascending and once each. -/
def State.markedUnits (s : State) : List Nat :=
  (s.marks.map (fun p => if 0x100000000 ≤ p.1 then p.1 - 0x100000000 else codeBase p.1)).dedup

/-- A word or row is read through its code and written again: a correction stays, uncorrectable data is poisoned
(R460, R477, R478). -/
def State.recode (s : State) (base : Nat) : State :=
  let g := s.readUnit base (codeSize base)
  let c := { g.st with writebacks := g.st.writebacks.filter (· != base) }.clearMarks base
  match g.bad with
  | some _ => { c with marks := mset c.marks base { poison := true } }
  | none => { c with mem := memWrite c.mem base g.bytes }

/-- A word or row meets a transparent march (R469): corrected and counted, or counted, recorded and left. -/
def State.marchUnit (s : State) (base : Nat) : Bool × State :=
  let g := s.readUnit base (codeSize base)
  let st := { g.st with writebacks := g.st.writebacks.filter (· != base) }
  match g.bad with
  | some _ => (true, st)
  | none => (false, st.writeBack base)

/-! ### Scrubbing (R464) -/

/-- How many words or rows a scrub pointer passes, and the address that it stands at; none for a number that names no
pointer. -/
def scrubSize (u m : Nat) : Option Nat :=
  if u < 12 then (if m < 16 then some 8192 else if m < 47 then some 4096 else none)
  else if m < 16 then some 8192 else none
def scrubAdr (u m p : Nat) : Nat :=
  if u < 12 then
    (if m < 16 then 0x10000000 + 0x1000000 * u + 0x10000 * m + 8 * p else bankAdr u (m - 16) p)
  else 0x20000000 + 64 * (16 * p + m)
def scrubPointers (u : Nat) : Nat := if u < 12 then 47 else 16

/-- Whether the scrubber of a unit runs: EN, and memories in service (DEDUCED, log 31). -/
def State.scrubs? (s : State) (u : Nat) : Bool :=
  if u < 12 then s.get (Adr.TIL_SCRUB u) Bits.TIL_SCRUB_EN == 1 && s.sleep u < 2
  else s.get Adr.BLK_LIBSCRUB Bits.BLK_LIBSCRUB_EN == 1 && !s.standby

/-- SCRUB_READ: a pointer reads its next word or row and advances; SCRUBPASS counts when every pointer of the unit has
passed. -/
def State.scrubRead (s : State) (u m : Nat) : State :=
  match scrubSize u m with
  | none => s
  | some n =>
    if !s.scrubs? u || s.poreset then s
    else
      let p := mget 0 s.scrubs (48 * u + m)
      let a := scrubAdr u m p
      let s := if s.memErr a then s else (s.readUnit a (codeSize a)).st
      let s := { s with scrubs := mset s.scrubs (48 * u + m) ((p + 1) % n) }
      if p + 1 < n then s
      else
        let done := putBits (mget 0 s.scrubbed u) m 1 1
        let pass := if u < 12 then Adr.TIL_SCRUBPASS u else Adr.BLK_LIBSCRUBPASS
        if done = 2 ^ scrubPointers u - 1 then
          ({ s with scrubbed := mset s.scrubbed u 0 } : State).countWrap pass ⟨0, 32⟩
        else { s with scrubbed := mset s.scrubbed u done }

/-- CORRECTION_WRITEBACK: the oldest corrected word or row is written back (R461). -/
def State.correctionWriteback (s : State) : State :=
  match s.writebacks with
  | [] => s
  | b :: rest => { s with writebacks := rest }.writeBack b

/-! ### Starting a march operation (R468) -/

/-- Whether a GO word of a unit holds a refused value. -/
def goRefused (u : Nat) (w : Nat) : Bool :=
  let op := getBits w 28 3
  if u < 12 then
    !(1 ≤ op && op ≤ 4) || getBits w 26 2 == 3 || (op == 3 && 30 < getBits w 17 5)
  else !(op == 1 || op == 2 || op == 4) || (op == 4 && (getBit w 23 || 8191 < getBits w 0 14))

/-- An operation starts: the fail list clears, BUSY sets. -/
def State.marchStart (s : State) (u w : Nat) : State :=
  let s := (List.range 16).foldl (fun s i => s.setReg (unitFail u i) 0) s
  let s := s.setReg (unitMarchst u) (BitVec.ofNat 64 (2 ^ 31 + getBits w 28 3 * 2 ^ 28))
  { s with marches := mset s.marches u (BitVec.ofNat 32 w) }

/-- A write of TIL_MARCH or BLK_LIBMARCH. -/
def State.marchWrite (s : State) (u w : Nat) : State :=
  let check : Bool := u < 12 && (s.power u).check.isSome
  let mode : Bool := getBits w 28 3 == 2 && s.mode != modeTest && s.mode != modeRecovery
  if !getBit w 31 then s
  else if goRefused u w || mode || s.marching u || check then s.put (unitStat u) Bits.TIL_MEMSTAT_MREF 1
  else s.marchStart u w

/-! ### The end of a march operation (R471, R476 to R478) -/

/-- An entry of the fail list (R480, R481). -/
def failEntry (u : Nat) (f : Nat × Nat) : Nat :=
  if u < 12 ∧ 16 ≤ f.1 then 2 ^ 31 + 2 ^ 30 + (f.1 - 16) * 2 ^ 21 + f.2
  else 2 ^ 31 + f.1 * 2 ^ 26 + f.2

/-- Whether two failures share an entry: a row of a scratchpad or library bank, or a whole tile bank. -/
def sameEntry (u : Nat) (f g : Nat × Nat) : Bool :=
  if u < 12 && 16 ≤ f.1 then f.1 == g.1 else f == g

/-- The failures that have an entry each, in order. -/
def failList (u : Nat) (l : List (Nat × Nat)) : List (Nat × Nat) :=
  l.foldl (fun acc f => if acc.any (sameEntry u f) then acc else acc ++ [f]) []

/-- Whether a march with a GO word meets a physical row: that of a memory it names. -/
def meets (u w : Nat) (f : Nat × Nat) : Bool :=
  if u < 12 then
    let tgt := getBits w 26 2
    if f.1 < 16 then f.2 < 1040 && (tgt == 2 || (tgt == 1 && getBits w 22 4 == f.1))
    else f.1 < 48 && f.2 < 4096 && (tgt == 2 || tgt == 0)
  else f.1 < 16 && f.2 < 8208 && (getBit w 23 || getBits w 24 4 == f.1)

/-- A failing spare row is BAD (R473). -/
def State.badSpare (s : State) (u : Nat) (f : Nat × Nat) : State :=
  if (u < 12 ∧ 16 ≤ f.1) ∨ f.2 < rowCount u then s else s.setBit (spareReg u f.1 (f.2 - rowCount u)) 30

/-- The address that a failing row in use stands for, or none: a spare that stands for no row, or the free bank. -/
def State.failAdr (s : State) (u : Nat) (f : Nat × Nat) : Option Nat :=
  if u < 12 ∧ 16 ≤ f.1 then
    (firstBelow 31 (fun l => s.remap u l == f.1 - 16)).map (fun l => bankAdr u l f.2)
  else if f.2 < rowCount u then
    (match s.spareFor u f.1 f.2 with
      | some _ => none
      | none => some (rowAdr u f.1 f.2))
  else
    let r := spareReg u f.1 (f.2 - rowCount u)
    if s.bit r 31 then some (rowAdr u f.1 (s.get r (spareRowFld u))) else none

/-- The outcome of a failure that no spare can cover (R476). -/
def State.exhausted (s : State) (u : Nat) (f : Nat × Nat) (a : Nat) : State :=
  if h : u < 12 then
    let det := BitVec.ofNat 32 (tileWindowAdr a)
    if 16 ≤ f.1 then s.sourceFenceTile ⟨u, h⟩ (srcTile u 6) det
    else if h2 : f.1 < 16 then
      (if s.engFenced (16 * u + f.1) then s.report 1 (srcTile u 6) det
       else s.sourceFenceEng ⟨16 * u + f.1, by omega⟩ (srcTile u 6) det)
    else s
  else (s.setBit Adr.BLK_LIBSTAT 5).report 1 0x1006 (BitVec.ofNat 32 a)

/-- Whether no spare can cover a failure: no free spare, or the free bank among the failures. -/
def State.noSpare (s : State) (u : Nat) (f : Nat × Nat) (all : List (Nat × Nat)) : Bool :=
  if u < 12 && 16 ≤ f.1 then
    match s.freeBank u with
    | some p => all.any (fun g => g.1 == 16 + p)
    | none => true
  else (s.freeSpare u f.1).isNone

/-- The end of an operation: BUSY clears, MDONE sets, RESULT reads 1 or 2. How many words or rows of which memory PROG shows
then is open (log 128). -/
def State.marchResult (s : State) (u : Nat) (pass : Bool) : State :=
  let s := s.free.2.put (unitMarchst u) Bits.TIL_MARCHST_PROG s.free.1.toNat
  ((s.put (unitMarchst u) Bits.TIL_MARCHST_BUSY 0).put (unitMarchst u) Bits.TIL_MARCHST_RESULT (if pass then 1 else 2)).put
    (unitStat u) Bits.TIL_MEMSTAT_MDONE 1

/-- The fail list of a march is written; spares that fail are BAD; failures that no spare can cover have their outcome,
except in BOOT, where the repairs come at step 7 (R475). -/
def State.recordFails (s : State) (u : Nat) (l : List (Nat × Nat)) : State :=
  let fs := failList u l
  let s := (fs.take 16).zipIdx.foldl (fun s x => s.setReg (unitFail u x.2) (BitVec.ofNat 64 (failEntry u x.1))) s
  let s := if 16 < fs.length then s.put (unitStat u) Bits.TIL_MEMSTAT_NOSPARE 1 else s
  let s := fs.foldl (fun s f => s.badSpare u f) s
  let s := if fs = [] then s else s.put (unitStat u) Bits.TIL_MEMSTAT_MFAIL 1
  let s := s.marchResult u (fs == [])
  if s.mode = modeBoot then s
  else fs.foldl (fun s f => match s.failAdr u f with
    | some a => if s.noSpare u f fs then s.exhausted u f a else s
    | none => s) s

/-- The end of a transparent march: the failures that its engine met, and the words whose code is beyond correction. -/
def State.endTransparent (s : State) (u : Nat) (w : Word) (fails : List (Nat × Nat)) : State :=
  let r := (s.markedUnits.filter (goTarget u w)).foldl (fun (acc : List (Nat × Nat) × State) b =>
    let x := acc.2.marchUnit b
    (if x.1 then acc.1 ++ [x.2.physOf b] else acc.1, x.2)) (fails, s)
  r.2.recordFails u r.1

/-- Memory that a march names holds zero with valid check bits, and links into it clear (R314, R466, R467). -/
def State.zeroTarget (s : State) (u : Nat) (w : Word) : State :=
  { s with
    mem := s.mem.filter (fun c => !goTarget u w c.1)
    marks := s.marks.filter (fun p => !goTarget u w (if 0x100000000 ≤ p.1 then p.1 - 0x100000000 else p.1))
    writebacks := s.writebacks.filter (fun b => !goTarget u w b)
    engines := s.engines.map (fun p => (p.1, match p.2.link with
      | some a => if goTarget u w a then { p.2 with link := none } else p.2
      | none => p.2)) }

/-- The end of a bank migration (R478). -/
def State.endMigration (s : State) (t : Nat) (w : Word) : State :=
  let l := getBits w.toNat 17 5
  match s.freeBank t with
  | some p =>
    let inBank (b : Nat) : Bool :=
      unitOf b == t && 0x800000 ≤ b % 0x1000000 && (b % 0x1000000 - 0x800000) / 8 % 31 == l
    let s := (s.markedUnits.filter inBank).foldl State.recode s
    ((s.setRemap t l p).put (unitStat t) Bits.TIL_MEMSTAT_REPNEW 1).marchResult t true
  | none => s.marchResult t false

/-- The end of a row repair (R477). OP 4 repairs the row ROW of scratchpad ENG whatever TGT holds (DESIGN CHOICE,
log 32). -/
def State.endRowRepair (s : State) (u : Nat) (w : Word) : State :=
  let x := if u < 12 then getBits w.toNat 22 4 else getBits w.toNat 24 4
  let row := if u < 12 then getBits w.toNat 0 10 else getBits w.toNat 0 13
  match s.freeSpare u x with
  | none => (s.put (unitStat u) Bits.TIL_MEMSTAT_NOSPARE 1).marchResult u false
  | some i =>
    let base := rowAdr u x row
    let s := (s.markedUnits.filter (fun b => base ≤ b && b < base + 64)).foldl State.recode s
    ((s.takeSpare u x row i).put (unitStat u) Bits.TIL_MEMSTAT_REPNEW 1).marchResult u true

/-- MARCH_COMPLETE: the operation of a unit ends. `fails`: the failing words, by physical memory and row, in the order
in which the engine met them. -/
def State.marchComplete (s : State) (u : Nat) (fails : List (Nat × Nat)) : State :=
  if !s.marching u then s
  else
    let w := mget 0 s.marches u
    match s.get (unitMarchst u) Bits.TIL_MARCHST_OP with
    | 1 => s.endTransparent u w (fails.filter (meets u w.toNat))
    | 2 => (s.zeroTarget u w).recordFails u (fails.filter (meets u w.toNat))
    | 3 => s.endMigration u w
    | _ => s.endRowRepair u w

/-! ### The commands -/

/-- The word of a GO of an operation. -/
def goWord (op : Nat) (v : Word) : Nat := putBits (putBits v.toNat 28 3 op) 31 1 1

/-- A GO of a tile's march engine, and of the library's. -/
def State.tileGo (s : State) (who : Initiator) (t : Tile) (w : Nat) : State :=
  s.commandOk who .r0 t.val (Adr.TIL_MARCH t.val) (fun s => s.marchWrite t.val w)
def State.libGo (s : State) (who : Initiator) (w : Nat) : State :=
  s.commandOk who .r0 0 Adr.BLK_LIBMARCH (fun s => s.marchWrite libUnit w)

/-- SCRUB_READ. -/
def execScrubRead (u : Fin 13) (m : Fin 48) (s : State) : Out := .next (s.scrubRead u.val m.val)

/-- CORRECTION_WRITEBACK. -/
def execCorrectionWriteback (s : State) : Out := .next s.correctionWriteback

/-- MARCH_TRANSPARENT. -/
def execMarchTransparent (who : Initiator) (t : Tile) (v : Word) (s : State) : Out :=
  .next (s.tileGo who t (goWord 1 v))

/-- MARCH_C_MINUS. -/
def execMarchCMinus (who : Initiator) (t : Tile) (v : Word) (s : State) : Out := .next (s.tileGo who t (goWord 2 v))

/-- BANK_MIGRATION. -/
def execBankMigration (who : Initiator) (t : Tile) (v : Word) (s : State) : Out := .next (s.tileGo who t (goWord 3 v))

/-- ROW_REPAIR. -/
def execRowRepair (who : Initiator) (t : Tile) (v : Word) (s : State) : Out := .next (s.tileGo who t (goWord 4 v))

/-- LIB_MARCH_TRANSPARENT. -/
def execLibMarchTransparent (who : Initiator) (v : Word) (s : State) : Out := .next (s.libGo who (goWord 1 v))

/-- LIB_MARCH_C_MINUS. -/
def execLibMarchCMinus (who : Initiator) (v : Word) (s : State) : Out := .next (s.libGo who (goWord 2 v))

/-- LIB_ROW_REPAIR. -/
def execLibRowRepair (who : Initiator) (v : Word) (s : State) : Out := .next (s.libGo who (goWord 4 v))

end Sys2Proof.Machine
end

