-- ==== Sys2Proof/Machine/Ucode.lean ====
section
/-!
DEFINITION. Control stores: loading, RELOAD and VERIFY (R483, R493 to R497, R502, R504).
-/

namespace Sys2Proof.Machine

/-! ### Golden words (R493) -/

/-- A word of the library, or none when its read gets ERR or is uncorrectable. -/
def State.golden (s : State) (a n : Nat) : Option Nat × State :=
  if inLibrary a ∧ inLibrary (a + n - 1) ∧ !s.memErr a then
    let g := s.load a n
    (if g.bad.isSome then none else some (leVal g.bytes), g.st)
  else (none, s)

/-- A word of a store with the parity that the loading hardware forms (R483). -/
def vertWord (v : Nat) : StoreWord := { val := BitVec.ofNat 128 v, par := 1 - bitSum 32 v % 2 }
def figWord (v : Nat) : StoreWord :=
  { val := BitVec.ofNat 128 v,
    par := (1 - bitSum 64 (v % 2 ^ 64) % 2) + 2 * (1 - bitSum 64 (v / 2 ^ 64) % 2) }

/-- The golden word `a` of a KIND: 0 stream, 1 lead, 2 figure store. -/
def State.goldenWord (s : State) (t kind a : Nat) : Option StoreWord × State :=
  let v := (s.reg (Adr.UC_GOLDV t)).toNat
  match kind with
  | 0 =>
    let r := s.golden (v + 4 * a) 4
    (r.1.map vertWord, r.2)
  | 1 =>
    let r := s.golden (v + 0x1000 + 4 * a) 4
    (r.1.map vertWord, r.2)
  | _ =>
    let r := s.golden ((s.reg (Adr.UC_GOLDF t)).toNat + 16 * a) 16
    (r.1.map figWord, r.2)

/-- The keys of the stores that a KIND and a mask select, at word `a`. -/
def storeKeys (t kind mask a : Nat) : List Nat :=
  match kind with
  | 0 => ((List.range 16).filter (fun e => 1 ≤ e && getBit mask e)).map (fun e => vertKey (16 * t + e) a)
  | 1 => if getBit mask 0 then [vertKey (16 * t) a] else []
  | _ => [figKey t a]

/-- A store word written through its second port. -/
def State.setStore (s : State) (k : Nat) (w : StoreWord) : State := { s with ucStores := mset s.ucStores k w }

/-! ### RELOAD and VERIFY -/

/-- The words of a RELOAD from `a` on, `n` of them; false when a golden word cannot be read (R504). -/
def State.reload (s : State) (t kind mask : Nat) : (n a : Nat) → Bool × State
  | 0, _ => (true, s)
  | n + 1, a =>
    match s.goldenWord t kind a with
    | (some w, s) => ((storeKeys t kind mask a).foldl (fun s k => s.setStore k w) s).reload t kind mask n (a + 1)
    | (none, s) => (false, s)

/-- Whether a word passes its parity. -/
def StoreWord.kindOk (kind : Nat) (w : StoreWord) : Bool := if kind = 2 then w.figOk else w.vertOk

/-- A store word that differs from its golden word, or fails its parity, is rewritten and counted (R502). -/
def State.verifyWord (s : State) (t kind k : Nat) (w : StoreWord) : State :=
  let x := s.storeWord k
  if x.val = w.val ∧ x.kindOk kind then s
  else
    let c := Adr.UC_CNT t
    let s := if s.get c Bits.UC_CNT_FIXCNT = 0 then s.report 0 (srcTile t 0x0A) else s
    (s.countSat c Bits.UC_CNT_FIXCNT).setStore k w

/-- The words of a VERIFY. -/
def State.verify (s : State) (t kind mask : Nat) : (n a : Nat) → Bool × State
  | 0, _ => (true, s)
  | n + 1, a =>
    match s.goldenWord t kind a with
    | (some w, s) => ((storeKeys t kind mask a).foldl (fun s k => s.verifyWord t kind k w) s).verify t kind mask n (a + 1)
    | (none, s) => (false, s)

/-! ### UC_CMD (R497) -/

/-- Whether a command is refused. -/
def State.ucRefused (s : State) (t v : Nat) : Bool :=
  let op := getBits v 28 4
  let kind := getBits v 26 2
  let first := getBits v 15 11
  let last := getBits v 4 11
  s.get (Adr.UC_STAT t) Bits.UC_STAT_BUSY == 1 || !(op == 1 || op == 2) || kind == 3 || last < first ||
    (kind == 0 && (0x3FF < last || s.get (Adr.UC_MASK t) Bits.UC_MASK_MASK / 2 == 0))

/-- A write of UC_CMD. -/
def State.ucWrite (s : State) (t v : Nat) : State :=
  let st := Adr.UC_STAT t
  if s.ucRefused t v then s.put st Bits.UC_STAT_CREF 1
  else
    { (s.put st Bits.UC_STAT_BUSY 1).put st Bits.UC_STAT_RESULT 0 with ucCmds := mset s.ucCmds t (BitVec.ofNat 32 v) }

/-- UC_COMMAND_COMPLETE: the command that runs ends. A RELOAD of the figure store waits for the running figure (R496). -/
def State.ucComplete (s : State) (t : Nat) : State :=
  let st := Adr.UC_STAT t
  let c := (mget 0 s.ucCmds t).toNat
  let kind := getBits c 26 2
  let mask := s.get (Adr.UC_MASK t) Bits.UC_MASK_MASK
  let first := getBits c 15 11
  let n := getBits c 4 11 + 1 - first
  if s.get st Bits.UC_STAT_BUSY ≠ 1 ∨ (s.ucRuns t 1 2 ∧ (s.figure t).running.isSome) then s
  else
    let r := if getBits c 28 4 = 1 then s.reload t kind mask n first else s.verify t kind mask n first
    (r.2.put st Bits.UC_STAT_BUSY 0).put st Bits.UC_STAT_RESULT (if r.1 then 1 else 2)

/-! ### Loading whole stores (R494, R495) -/

/-- The golden words of a KIND from `a` on, `n` of them, up to one that cannot be read. -/
def State.goldenRun (s : State) (t kind : Nat) : (n a : Nat) → List StoreWord × State
  | 0, _ => ([], s)
  | n + 1, a =>
    match s.goldenWord t kind a with
    | (some w, s) =>
      let r := s.goldenRun t kind n (a + 1)
      (w :: r.1, r.2)
    | (none, s) => ([], s)

/-- The entries of a store whose first key is `k`. -/
def storeEntries (k : Nat) (l : List StoreWord) : Map StoreWord := l.zipIdx.map (fun x => (k + x.2, x.1))

/-- A tile's stores hold nothing (R495). -/
def State.emptyStores (s : State) (t : Nat) : State :=
  { s with ucStores := s.ucStores.filter (fun p =>
      p.1 < vertKey (16 * t) 0 || (vertKey (16 * t + 16) 0 ≤ p.1 && p.1 < figKey t 0) || figKey (t + 1) 0 ≤ p.1) }

/-- Every store of a tile is loaded from the golden images; from a word that cannot be read on, a store holds
nothing. -/
def State.loadStores (s : State) (t : Nat) : State :=
  let v := s.goldenRun t 0 1024 0
  let l := v.2.goldenRun t 1 2048 0
  let f := l.2.goldenRun t 2 2048 0
  let s := f.2.emptyStores t
  let verts := storeEntries (vertKey (16 * t) 0) l.1 ++
    (List.range 15).flatMap (fun e => storeEntries (vertKey (16 * t + 1 + e) 0) v.1)
  { s with ucStores :=
      s.ucStores.filter (fun p => p.1 < vertKey (16 * t) 0) ++ verts ++
        s.ucStores.filter (fun p => vertKey (16 * t) 0 < p.1 && p.1 < figKey t 0) ++
        storeEntries (figKey t 0) f.1 ++ s.ucStores.filter (fun p => figKey t 0 < p.1) }

/-! ### The commands -/

/-- A write of UC_CMD with an OP. -/
def State.ucGo (s : State) (who : Initiator) (t : Tile) (op : Nat) (v : Word) : State :=
  s.commandOk who .r0 t.val (Adr.UC_CMD t.val) (fun s => s.ucWrite t.val (putBits v.toNat 28 4 op))

/-- UC_RELOAD. -/
def execUcReload (who : Initiator) (t : Tile) (v : Word) (s : State) : Out := .next (s.ucGo who t 1 v)

/-- UC_VERIFY. -/
def execUcVerify (who : Initiator) (t : Tile) (v : Word) (s : State) : Out := .next (s.ucGo who t 2 v)

/-- UC_COMMAND_COMPLETE. -/
def execUcCommandComplete (t : Tile) (s : State) : Out := .next (s.ucComplete t.val)

end Sys2Proof.Machine
end

