-- ==== Sys2Proof/Machine/Power.lean ====
section
/-!
DEFINITION. Supplies and clocks (R575 to R580), sleep (R581 to R586), Standby (R587 to R589), margin pair changes (R604),
checks, the age log and the plan (R592 to R603).
-/

namespace Sys2Proof.Machine

/-! ### A tile's pair -/

/-- The active pair, and the pair of a change in progress. -/
def State.vt (s : State) (t : Nat) : Nat := s.get (Adr.MRG_PAIR t) Bits.MRG_PAIR_VT
def State.fn (s : State) (t : Nat) : Nat := s.get (Adr.MRG_PAIR t) Bits.MRG_PAIR_N
def State.nextVt (s : State) (t : Nat) : Nat := fldOf (s.shadowReg (Adr.MRG_PAIR t)) Bits.MRG_PAIR_VT
def State.nextFn (s : State) (t : Nat) : Nat := fldOf (s.shadowReg (Adr.MRG_PAIR t)) Bits.MRG_PAIR_N

/-- A margin pair change is in progress: its GO waits for its boundary. -/
def State.changing (s : State) (t : Tile) : Bool := s.groupPending (.margin t)

/-- Whether a tile runs on the safe clock (R594): FCLK 500 MHz, which is 20 steps of 25 MHz. -/
def State.safeClk (s : State) (t : Nat) : Bool := s.get (Adr.MRG_TSTAT t) Bits.MRG_TSTAT_SAFECLK == 1
def safeFclk : Nat := 20

/-! ### VREQ (R575 to R577, R677) -/

/-- The code that a tile asks of VDD_CORE. Until step 7 of a start the tiles run at VT 30, which VREQ holds till then (R575,
R622). -/
def State.tileCode (s : State) (t : Tile) : Nat :=
  if s.sleep t.val = 3 then 0
  else if s.mode = modeBoot then max (s.vt t.val) (s.power t.val).rail
  else if s.changing t then max (s.vt t.val) (s.nextVt t.val) else s.vt t.val

/-- The code that VREQ moves toward. -/
def State.vreqTarget (s : State) : Nat :=
  let floor := s.get Adr.MRG_BLKV Bits.MRG_BLKV_FLOOR
  let codes := allTiles.foldl (fun m t => max m (s.tileCode t)) floor
  if s.poreset ∨ s.boot.cold then 30
  else if s.standby then
    (if s.boot.waking then floor
     else if allTiles.all (fun t => s.sleep t.val == 3) then s.get Adr.MRG_BLKV Bits.MRG_BLKV_STBYV else min codes 50)
  else min codes 50

/-- VREQ_STEP: STEPT µs have passed since the last change. In the fatal state the last code is held. -/
def State.vreqStep (s : State) : State :=
  let v := s.get Adr.MRG_BLKV Bits.MRG_BLKV_VREQ
  let w := s.vreqTarget
  if s.fatal ∨ v = w then s
  else s.put Adr.MRG_BLKV Bits.MRG_BLKV_VREQ (if v < w then v + 1 else v - 1)

/-! ### Switching a tile off and on (R585, R586) -/

/-- A register of a tile that Off keeps: the MRG_ registers, and the copy of the remap and spare state (R479, R581). -/
def keptInOff (a : Nat) : Bool :=
  let o := a % 0x80000
  mrgOffset a || (0xF060 ≤ o && o < 0xF078) || (0xF100 ≤ o && o < 0xF500)

/-- UC_GOLDV and UC_GOLDF, at which a tile that wakes from Off finds its golden images (R495). -/
def goldReg (a : Nat) : Bool := a % 0x80000 == 0x15008 || a % 0x80000 == 0x1500C

/-- A register of tile `t` that Off loses (the golden addresses stay: DEDUCED, log 36). -/
def lostInOff (t a : Nat) : Bool := regTile a == some t && !keptInOff a && !goldReg a

/-- The rail of a tile switches off: everything but what R581 names is lost. -/
def State.switchOff (s : State) (t : Nat) : State :=
  let mine (a : Nat) : Bool := unitOf a == t
  let st := Adr.MRG_TSTAT t
  let s : State := { s with
    regs := s.regs.filter (fun p => !lostInOff t p.1)
    shadow := s.shadow.filter (fun p => !lostInOff t p.1)
    mem := s.mem.filter (fun c => !mine c.1)
    marks := s.marks.filter (fun p => !mine (if 0x100000000 ≤ p.1 then p.1 - 0x100000000 else p.1))
    writebacks := s.writebacks.filter (fun b => !mine b)
    marches := mdel s.marches t
    scrubs := s.scrubs.filter (fun p => p.1 / 48 != t)
    scrubbed := mdel s.scrubbed t
    engines := s.engines.map (fun p => if tileOf p.1 = t then (p.1, { nextTag := p.2.nextTag }) else p)
    ready := mdel s.ready t
    rebased := s.rebased.filter (fun p => p.1 / 16 != t)
    figures := mdel s.figures t
    ucCmds := mdel s.ucCmds t
    wakes := s.wakes.filter (· != t)
    plls := putBits s.plls (3 + t) 1 0 }
  let s := (s.emptyStores t).setPower t { s.power t with
    rail := 0, fclk := 0, pwake := none, slewed := false, replan := false, off := false, quick := false, check := none }
  (s.put st Bits.MRG_TSTAT_SLEEP 3).put st Bits.MRG_TSTAT_SAFECLK 0

/-- The conditions of R585. -/
def State.offAllowed (s : State) (t : Nat) : Bool :=
  (List.range 16).all (fun e => !s.placed (16 * t + e) || (e == 0 && s.ctxOf (16 * t + e) == 0)) &&
    (s.figure t).queue == [] && !s.marching t

/-- A tile goes to Off, at the boundary of a margin pair change in progress and not while a march is BUSY (R472; DEDUCED,
log 136). -/
def State.goOff (s : State) (t : Tile) : State :=
  if s.sleep t.val = 3 then s
  else if s.changing t ∨ s.marching t.val then s.setPower t.val { s.power t.val with off := true }
  else s.switchOff t.val

/-- An Off that waited for a boundary or a march is served (R472). -/
def State.serveOff (s : State) (t : Tile) : State :=
  if (s.power t.val).off ∧ !s.changing t ∧ !s.marching t.val then s.switchOff t.val else s

/-- A tile restart is asked for (R630): dropped in BOOT. -/
def State.askRestart (s : State) (t : Nat) : State :=
  if s.mode = modeBoot ∨ s.boot.restarts.contains t then s
  else
    { s.put Adr.BOOT_TRSTAT ⟨t, 1⟩ 1 with boot := { s.boot with restarts := s.boot.restarts ++ [t] } }

/-- No source is pending in a tile, and none repeats (R448). -/
def State.clearPend (s : State) (t : Nat) : State :=
  { s with regs := s.regs.filter (fun p => !(regTile p.1 == some t && 0xE100 ≤ p.1 % 0x80000 && p.1 % 0x80000 < 0xE600)) }

/-- The ticks of R586 of a tile that was in Off: rail, PLL, cleared memories with the links into them gone (R314, R465),
stores reloaded, nothing pending (R448). -/
def State.powerUp (s : State) (t : Nat) : State :=
  let s := (s.zeroTarget t (BitVec.ofNat 32 (2 * 2 ^ 26))).clearPend t
  let s := s.put (Adr.MRG_TSTAT t) Bits.MRG_TSTAT_SLEEP 0
  let s := s.setPower t { s.power t with rail := s.vt t, fclk := s.fn t }
  { s with plls := putBits s.plls (3 + t) 1 1 }.loadStores t

/-- A write of MRG_PWR. -/
def State.pwrWrite (s : State) (t : Tile) (v : Nat) : State :=
  match getBits v 30 2 with
  | 1 =>
    if s.sleep t.val = 3 then s
    else if s.offAllowed t.val then s.goOff t
    else s.put (Adr.MRG_TSTAT t.val) Bits.MRG_TSTAT_OFFREF 1
  | 2 => if s.sleep t.val = 3 then (s.powerUp t.val).askRestart t.val else s
  | _ => s

/-! ### Doze and Nap (R582, R583) -/

/-- Whether an engine lets its tile doze. -/
def State.restful (s : State) (g : Nat) : Bool :=
  !s.placed g || ((s.eng g).hold == .waiti && !s.anyPending g)

/-- DOZE_ENTRY: DOZEDLY FCLK have passed in which the conditions of R582 held. -/
def State.dozeEntry (s : State) (t : Nat) : State :=
  let u := s.figure t
  if s.sleep t = 0 ∧ (List.range 16).all (fun e => s.restful (16 * t + e)) ∧ u.running.isNone ∧ u.queue = [] ∧
      s.get (Adr.UC_STAT t) Bits.UC_STAT_BUSY = 0 ∧ (s.power t).pwake = none ∧ !s.poreset then
    s.put (Adr.MRG_TSTAT t) Bits.MRG_TSTAT_SLEEP 1
  else s

/-- Whether a tile is being swept (R598). -/
def State.sweeping (s : State) (t : Nat) : Bool :=
  s.get Adr.MRG_SWEEP Bits.MRG_SWEEP_BUSY == 1 && s.get Adr.MRG_SWEEP Bits.MRG_SWEEP_TILE == t

/-- NAP_ENTRY: NAPDLY µs have passed in Doze. A wake cause that has arrived reverses it. -/
def State.napEntry (s : State) (t : Tile) : State :=
  if s.sleep t.val = 1 ∧ s.get (Adr.MRG_SLEEP t.val) Bits.MRG_SLEEP_NAPEN = 1 ∧ !s.marching t.val ∧ !s.changing t ∧
      !s.sweeping t.val ∧ (s.power t.val).check = none ∧ !s.wakes.contains t.val then
    let s := s.put (Adr.MRG_TSTAT t.val) Bits.MRG_TSTAT_SLEEP 2
    let s := s.setPower t.val { s.power t.val with rail := s.get Adr.MRG_BLKV Bits.MRG_BLKV_STBYV }
    { s with plls := putBits s.plls (3 + t.val) 1 0 }
  else s

/-- TILE_WAKE: a tile that a cause of R583 wakes reaches Run. -/
def State.tileWake (s : State) (t : Nat) : State :=
  if s.wakes.contains t then { s.wakeNow t with wakes := s.wakes.filter (· != t) } else s

/-! ### Checks and the plan (R595 to R603) -/

/-- The even codes (R598). -/
def evenCodes : List Nat := (List.range 26).map (2 * ·)

/-- FMAX of a record at a code. -/
def fmaxAt (l : List Nat) (v : Nat) : Nat := l.getD (v / 2) 0

/-- The FMAX entries of a check: all of a full sweep; of a quick check those at the even codes nearest to the active VT
from below, VT itself when it is even (DEDUCED, log 33), and from above. -/
def checkFmax (full : Bool) (vt : Nat) (d : CheckData) : List Nat :=
  (List.range 26).map (fun k =>
    if full || k == vt / 2 || k == vt / 2 + 1 then (d.fmax.getD k 0).toNat else 0)

/-- DEG (R595). With FFRESH 0 the quotient is open. -/
def State.degOf (s : State) (d : CheckData) : Nat × State :=
  let f := d.ffresh.toNat
  if f = 0 then
    let r := s.free
    (r.1.toNat % 65536, r.2)
  else
    let x : Int := (65536 * ((f : Int) - d.fstr.toNat)) / f
    ((max 0 (min x 65535)).toNat, s)

/-- VMEM (R596). -/
def vmemOf (vt mmin mg : Nat) : Nat :=
  let x : Int := (vt : Int) - 2 * ((mmin : Int) - mg)
  (max 0 (min x 50)).toNat

/-- Whether `q` tenths of years have not gone when the forecast's hours have: 8766 q + 10 t against 10 t r^(16/e), with
r = num / den, both sides raised to the power `e` (R600). -/
def fcastReaches (num den t e q : Nat) : Bool := (8766 * q + 10 * t) ^ e * den ^ 16 ≤ (10 * t) ^ e * num ^ 16

/-- The largest value of `n` bits, above `b`, that the forecast reaches. -/
def fcastSearch (num den t e : Nat) : (n b : Nat) → Nat
  | 0, b => b
  | n + 1, b =>
    fcastSearch num den t e n (if fcastReaches num den t e (b + 2 ^ n) then b + 2 ^ n else b)

/-- FCAST (R600). With NEXP 0, or with Fb below Nr and an exponent 16 / NEXP that gives no real power, the result is
open. -/
def State.fcastOf (s : State) (fb fc t nr e : Nat) : Nat × State :=
  if fb ≤ fc ∨ t = 0 then (0xFFFF, s)
  else if e = 0 ∨ (fb < nr ∧ 16 % e ≠ 0) then
    let r := s.free
    (r.1.toNat % 65536, r.2)
  else (fcastSearch ((fb : Int) - nr).natAbs (fb - fc) t e 16 0, s)

/-- Nr of R600 and Nt of R602 are one. -/
def State.targetN (s : State) (t : Nat) : Nat :=
  let n := s.get (Adr.MRG_TPLAN t) Bits.MRG_TPLAN_NTGT
  if s.eventTile t then max n 40 else n

/-- The smallest even code from VMEM on whose FMAX is at least `n`. -/
def smallestCode (l : List Nat) (vmem n : Nat) : Option Nat := evenCodes.find? (fun v => vmem ≤ v && n ≤ fmaxAt l v)

/-- The planned pair, and whether the tile is worn (R602). -/
def planPair (l : List Nat) (vmem nt nmin : Nat) (ev : Bool) : Nat × Nat × Bool :=
  let n := min nt (fmaxAt l 50)
  match smallestCode l vmem nt with
  | some v => (v, nt, false)
  | none =>
    match (if ev ∨ n < nmin then none else smallestCode l vmem n) with
    | some v => (v, n, false)
    | none => (50, if ev then nt else max nmin n, true)

/-- The planned pair goes to the shadow, and GO is written, when it differs from the active pair (R603). -/
def State.autoCommit (s : State) (t : Tile) : State :=
  let p := s.reg (Adr.MRG_PROP t.val)
  let vt := fldOf p Bits.MRG_PROP_VT
  let n := fldOf p Bits.MRG_PROP_N
  if s.get (Adr.MRG_TPLAN t.val) Bits.MRG_TPLAN_AUTO = 0 ∨ (vt = s.vt t.val ∧ n = s.fn t.val) then s
  else (s.setShadow (Adr.MRG_PAIR t.val) (BitVec.ofNat 64 (vt * 256 + n))).marginGo t

/-- The plan commits, after the boundary of a change in progress. -/
def State.commitPlan (s : State) (t : Tile) : State :=
  if s.changing t then s.setPower t.val { s.power t.val with replan := true } else s.autoCommit t

/-- One record of the age log (R599). -/
def ageRecord (runh id : Nat) (fmax : List Nat) (vmem mmin deg fcast planv plann flags : Nat) : List Byte :=
  leBytes 4 runh ++ leBytes 4 id ++ fmax.map (BitVec.ofNat 8) ++ leBytes 1 vmem ++ leBytes 1 mmin ++ leBytes 2 deg ++
    leBytes 2 fcast ++ leBytes 1 planv ++ leBytes 1 plann ++ leBytes 1 flags ++ List.replicate 21 0

/-- The record goes into the log, and WP advances. -/
def State.logWrite (s : State) (bytes : List Byte) : State :=
  let wp := s.get Adr.MRG_LOGCTL Bits.MRG_LOGCTL_WP
  let len := s.get Adr.MRG_LOGCTL Bits.MRG_LOGCTL_LEN
  let a := (s.reg Adr.MRG_LOGBASE).toNat + 64 * wp
  let s := if inLibrary a ∧ !s.writeErr a 64 then s.store false a bytes else s
  { s.put Adr.MRG_LOGCTL Bits.MRG_LOGCTL_WP (if wp + 1 < len then wp + 1 else 0) with
    logSeq := (s.logSeq + 1) % 65536 }

/-- What a check leaves: the tile's registers, its record in the log, and its plan. -/
def State.applyCheck (s : State) (t : Tile) (full : Bool) (d : CheckData) : State :=
  let i := t.val
  let vt := s.vt i
  let fmax := checkFmax full vt d
  let nt := s.targetN i
  let dg := s.degOf d
  let s := dg.2.put (Adr.MRG_TSTAT i) Bits.MRG_TSTAT_TEMP d.temp.toNat
  let s := s.put (Adr.MRG_TSTAT i) Bits.MRG_TSTAT_DEG dg.1
  let s := s.setReg (Adr.MRG_ROSC i) (BitVec.ofNat 64 (d.fstr.toNat * 65536 + d.ffresh.toNat))
  let s := (List.range 4).foldl (fun s k =>
    s.setReg (Adr.MRG_CAN i k) (BitVec.ofNat 64 ((d.slack.getD k 0).toNat * 256))) s
  let base := s.get (Adr.MRG_TAGE i) Bits.MRG_TAGE_BASEN
  let fc := fmaxAt fmax 50
  let s :=
    if !full then s
    else if base = 0 then
      (s.put (Adr.MRG_TAGE i) Bits.MRG_TAGE_BASEN fc).put (Adr.MRG_TAGE i) Bits.MRG_TAGE_FCAST 0xFFFF
    else
      let f := s.fcastOf base fc (s.reg Adr.MRG_RUNTIME).toNat nt (s.get Adr.MRG_AGE Bits.MRG_AGE_NEXP)
      f.2.put (Adr.MRG_TAGE i) Bits.MRG_TAGE_FCAST f.1
  let vmem := vmemOf vt d.mmin.toNat (s.get Adr.MRG_GUARD Bits.MRG_GUARD_MG)
  let p := planPair fmax vmem nt (s.get (Adr.MRG_TPLAN i) Bits.MRG_TPLAN_NMIN) (s.eventTile i)
  let s := s.setReg (Adr.MRG_PROP i) (BitVec.ofNat 64 (2 ^ 31 + p.1 % 64 * 256 + p.2.1 % 64))
  let s :=
    if p.2.2 ∧ !s.worn i then
      (s.put (Adr.MRG_TSTAT i) Bits.MRG_TSTAT_WORN 1).report 0 (srcTile i 0x0C)
    else s
  let id := i * 2 ^ 28 + bnat full * 2 ^ 24 + d.temp.toNat * 65536 + s.logSeq
  let flags := bnat (s.worn i) + 2 * bnat (s.eventTile i) + 4 * bnat (fmaxAt fmax vt < s.fn i)
  let s := s.logWrite (ageRecord (s.reg Adr.MRG_RUNTIME).toNat id fmax vmem d.mmin.toNat dg.1
    (s.get (Adr.MRG_TAGE i) Bits.MRG_TAGE_FCAST) p.1 p.2.1 flags)
  let s := s.setPower i { s.power i with fmax := fmax, check := none }
  s.commitPlan t

/-! ### Margin pair changes (R604) -/

/-- The boundary of a tile's change: the pair is active, the safe clock ends when the FCLK step is past (R594), and an
Off or a plan that waited is served. -/
def State.pairBoundary (s : State) (t : Tile) : State :=
  let s := s.applyGroup (.margin t)
  let s := if s.safeClk t.val then
      (s.put (Adr.MRG_TSTAT t.val) Bits.MRG_TSTAT_SAFECLK 0).setPower t.val { s.power t.val with fclk := 24 } else s
  let p := s.power t.val
  let s := s.setPower t.val { p with slewed := false, replan := false }
  if p.off then s.serveOff t else if p.replan then s.autoCommit t else s

/-- The code that a tile's regulator works toward (R577, R604). -/
def State.railTarget (s : State) (t : Tile) : Nat :=
  let vt := s.vt t.val
  let nv := s.nextVt t.val
  if s.sleep t.val = 2 then s.get Adr.MRG_BLKV Bits.MRG_BLKV_STBYV
  else if s.changing t ∧ vt < nv then (if nv ≤ s.get Adr.MRG_BLKV Bits.MRG_BLKV_VREQ then nv else vt)
  else if s.changing t ∧ nv < vt then (if (s.power t.val).slewed then nv else vt)
  else vt

/-- REGULATOR_ACK: the tile's rail lies within 5 mV of its target. It is the boundary of a change whose last step is its
rail's: one that lowers VT, or one that raises it with FCLK already at N. -/
def State.regulatorAck (s : State) (t : Tile) : State :=
  let i := t.val
  if s.sleep i = 3 ∨ s.poreset then s
  else
    let s := s.setPower i { s.power i with rail := s.railTarget t }
    let vt := s.vt i
    let nv := s.nextVt i
    if s.changing t ∧ (s.power i).rail = nv ∧
        ((nv < vt ∧ (s.power i).slewed) ∨ (vt < nv ∧ (s.power i).fclk = s.nextFn i)) then s.pairBoundary t
    else s

/-- FCLK_STEP: one step of 25 MHz toward N. A change that raises VT waits for its rail first; a change that does not lower
VT ends when FCLK reaches N. The safe clock ends at this step (R594). Outside a change FCLK follows the active pair, a
plan that waited is served, and the safe clock stays. -/
def State.fclkStep (s : State) (t : Tile) : State :=
  let i := t.val
  let p := s.power i
  let move (c n : Nat) : Nat := if c < n then c + 1 else if n < c then c - 1 else c
  if 2 ≤ s.sleep i ∨ s.poreset then s
  else if !s.changing t then
    let s := if p.replan then (s.setPower i { p with replan := false }).autoCommit t else s
    if s.safeClk i then s
    else s.setPower i { s.power i with fclk := move (s.power i).fclk (s.fn i) }
  else if p.slewed ∨ (s.vt i < s.nextVt i ∧ p.rail ≠ s.nextVt i) then s
  else
    let c := if s.safeClk i then 24 else move p.fclk (s.nextFn i)
    let s := s.put (Adr.MRG_TSTAT i) Bits.MRG_TSTAT_SAFECLK 0
    let s := s.setPower i { p with fclk := c, slewed := c == s.nextFn i }
    if c = s.nextFn i ∧ s.vt i ≤ s.nextVt i then s.pairBoundary t else s

/-! ### The events of checks (R593, R594, R597, R598, R607) -/

/-- LIVE_TRIP: a live canary fails in 2 of 16 consecutive FCLK. In Doze and Nap a canary has no FCLK, and during a check
it does not run live (R591). -/
def State.liveTrip (s : State) (t : Nat) : State :=
  if s.sleep t ≠ 0 ∨ (s.power t).check.isSome ∨ s.poreset then s
  else
    let st := Adr.MRG_TSTAT t
    ((s.put st Bits.MRG_TSTAT_LIVETRIP 1).put st Bits.MRG_TSTAT_SAFECLK 1).setPower t
      { s.power t with fclk := safeFclk, quick := true }

/-- Whether a check may run in a tile: in service, no software march, no other check (R596). -/
def State.checkable (s : State) (t : Nat) : Bool :=
  s.sleep t != 3 && !s.tileFenced t && !s.marching t && (s.power t).check.isNone && !s.poreset

/-- QUICK_CHECK: a quick check that is due measures. -/
def State.quickCheck (s : State) (t : Nat) (d : CheckData) : State :=
  if (s.power t).quick ∧ s.checkable t then
    s.setPower t { s.power t with quick := false, check := some (false, d) }
  else s

/-- SWEEP_DUE: SINCE has reached INT hours. A sweep starts from the lowest tile. -/
def State.sweepStart (s : State) : State :=
  if s.get Adr.MRG_SWEEP Bits.MRG_SWEEP_DUE = 1 then s
  else { s.put Adr.MRG_SWEEP Bits.MRG_SWEEP_DUE 1 with sweepNext := 0 }
def State.sweepDue (s : State) : State :=
  let int := s.get Adr.MRG_SWEEP Bits.MRG_SWEEP_INT
  if int ≠ 0 ∧ int ≤ s.get Adr.MRG_SWEEP Bits.MRG_SWEEP_SINCE then s.sweepStart else s

/-- A write of MRG_SWEEP: INT, and GO. -/
def State.sweepWrite (s : State) (v : Nat) : State :=
  let s := s.setReg Adr.MRG_SWEEP (BitVec.ofNat 64 (s.writtenAt Adr.MRG_SWEEP v))
  if getBit v 31 then s.sweepStart else s

/-- The tile that a sweep comes to: the next that is neither in Off nor fenced. -/
def State.sweepTile (s : State) : Option Nat :=
  firstBelow 12 (fun t => s.sweepNext ≤ t && s.sleep t != 3 && !s.tileFenced t)

/-- Whether a sweep goes on: due, outside Standby, at standstill. -/
def State.sweepRuns (s : State) : Bool :=
  s.get Adr.MRG_SWEEP Bits.MRG_SWEEP_DUE == 1 && !s.standby && s.blockStill

/-- FULL_SWEEP: the tile that the sweep has come to measures, from Doze when it naps. -/
def State.fullSweep (s : State) (t : Nat) (d : CheckData) : State :=
  if s.sweepRuns ∧ s.get Adr.MRG_SWEEP Bits.MRG_SWEEP_BUSY = 0 ∧ s.sweepTile = some t ∧ s.checkable t then
    let s := (s.put Adr.MRG_SWEEP Bits.MRG_SWEEP_BUSY 1).put Adr.MRG_SWEEP Bits.MRG_SWEEP_TILE t
    let s := if s.sleep t = 2 then (s.leaveNap t).put (Adr.MRG_TSTAT t) Bits.MRG_TSTAT_SLEEP 1 else s
    s.setPower t { s.power t with check := some (true, d) }
  else s

/-- The sweep of a tile is abandoned: standstill has ended, or the tile has left service. -/
def State.sweepAbandon (s : State) : State :=
  let t := s.get Adr.MRG_SWEEP Bits.MRG_SWEEP_TILE
  (s.put Adr.MRG_SWEEP Bits.MRG_SWEEP_BUSY 0).setPower t { s.power t with check := none }

/-- The sweep at an SCLK tick: abandoned when standstill has ended, over when no tile is left. -/
def State.sweepTick (s : State) : State :=
  let busy := s.get Adr.MRG_SWEEP Bits.MRG_SWEEP_BUSY == 1
  let t := s.get Adr.MRG_SWEEP Bits.MRG_SWEEP_TILE
  if busy then (if s.blockStill && s.sleep t != 3 && !s.tileFenced t then s else s.sweepAbandon)
  else if s.sweepRuns && s.sweepTile.isNone then
    (s.put Adr.MRG_SWEEP Bits.MRG_SWEEP_DUE 0).put Adr.MRG_SWEEP Bits.MRG_SWEEP_SINCE 0
  else s

/-- CHECK_COMPLETE: the check of a tile ends. At start-up its record waits for step 7 (R623). -/
def State.checkComplete (s : State) (t : Tile) : State :=
  match (s.power t.val).check with
  | none => s
  | some (full, d) =>
    if s.mode = modeBoot then s
    else if s.sleep t.val = 3 ∨ s.tileFenced t.val ∨ (full ∧ !s.blockStill) then
      (if full then s.sweepAbandon else s.setPower t.val { s.power t.val with check := none })
    else
      let s := s.applyCheck t full d
      if full then
        { s.put Adr.MRG_SWEEP Bits.MRG_SWEEP_BUSY 0 with sweepNext := t.val + 1 }.sweepTick
      else s

/-- RUNTIME_HOUR: an hour in RUN outside Standby has passed. -/
def State.runtimeHour (s : State) : State :=
  if s.mode = modeRun ∧ !s.standby ∧ !s.poreset then
    (s.countOpen Adr.MRG_RUNTIME ⟨0, 32⟩).countSat Adr.MRG_SWEEP Bits.MRG_SWEEP_SINCE
  else s

/-! ### Standby (R587 to R589) -/

/-- Whether Standby may be entered. -/
def State.standbyAllowed (s : State) : Bool :=
  (s.mode == modeCommission || s.mode == modeRun) && !s.fatal && s.blockStill && !s.marching libUnit &&
    (List.range 12).all (fun t => s.sleep t == 3 || s.offAllowed t)

/-- ENTER. -/
def State.standbyEnter (s : State) : State :=
  if s.standby then s
  else if !s.standbyAllowed then s.put Adr.MRG_STBY Bits.MRG_STBY_SREF 1
  else
    let s := (s.put Adr.MRG_STBY Bits.MRG_STBY_SMODE s.mode).put Adr.MRG_STBY Bits.MRG_STBY_IN 1
    let s := allTiles.foldl (fun s t => s.goOff t) s
    let s := (List.range 8).foldl State.reelDark s
    let s := (List.range 4).foldl State.relayDark s
    { s with plls := putBits s.plls 0 3 0 }

/-- A wake cause of Standby: VREQ starts to step toward FLOOR (R589). -/
def State.standbyWake (s : State) : State :=
  if s.standby then { s with boot := { s.boot with waking := true } } else s

/-- A write of MRG_STBY. -/
def State.stbyWrite (s : State) (v : Nat) : State :=
  let s := s.setReg Adr.MRG_STBY (BitVec.ofNat 64 (s.writtenAt Adr.MRG_STBY v))
  if getBit v 1 ∧ s.standby then s.standbyWake else if getBit v 0 then s.standbyEnter else s

/-! ### The commands -/

/-- STANDBY_ENTER: a write of ENTER, the other bits as they stand. -/
def execStandbyEnter (who : Initiator) (s : State) : Out :=
  .next (s.commandOk who .r0 0 Adr.MRG_STBY (fun s => s.standbyEnter))

/-- STANDBY_WAKE: a write of WAKE. -/
def execStandbyWake (who : Initiator) (s : State) : Out :=
  .next (s.commandOk who .r0 0 Adr.MRG_STBY (fun s => s.standbyWake))

/-- TILE_OFF. -/
def execTileOff (who : Initiator) (t : Tile) (s : State) : Out :=
  .next (s.commandOk who .r0 t.val (Adr.MRG_PWR t.val) (fun s => s.pwrWrite t (2 ^ 30)))

/-- TILE_ON. -/
def execTileOn (who : Initiator) (t : Tile) (s : State) : Out :=
  .next (s.commandOk who .r0 t.val (Adr.MRG_PWR t.val) (fun s => s.pwrWrite t (2 ^ 31)))

/-- DOZE_ENTRY. -/
def execDozeEntry (t : Tile) (s : State) : Out := .next (s.dozeEntry t.val)

/-- NAP_ENTRY. -/
def execNapEntry (t : Tile) (s : State) : Out := .next (s.napEntry t)

/-- TILE_WAKE. -/
def execTileWake (t : Tile) (s : State) : Out := .next (s.tileWake t.val)

/-- LIVE_TRIP. -/
def execLiveTrip (t : Tile) (s : State) : Out := .next (s.liveTrip t.val)

/-- SWEEP_DUE. -/
def execSweepDue (s : State) : Out := .next s.sweepDue

/-- SWEEP_GO: a write of GO. -/
def execSweepGo (who : Initiator) (s : State) : Out :=
  .next (s.commandOk who .r0 0 Adr.MRG_SWEEP (fun s => s.sweepStart))

/-- FULL_SWEEP. -/
def execFullSweep (t : Tile) (d : CheckData) (s : State) : Out := .next (s.fullSweep t.val d)

/-- CHECK_COMPLETE. -/
def execCheckComplete (t : Tile) (s : State) : Out := .next (s.checkComplete t)

/-- RUNTIME_HOUR. -/
def execRuntimeHour (s : State) : Out := .next s.runtimeHour

/-- VREQ_STEP. -/
def execVreqStep (s : State) : Out := .next s.vreqStep

/-- FCLK_STEP. -/
def execFclkStep (t : Tile) (s : State) : Out := .next (s.fclkStep t)

/-- REGULATOR_ACK. -/
def execRegulatorAck (t : Tile) (s : State) : Out := .next (s.regulatorAck t)

end Sys2Proof.Machine
end

