-- ==== Sys2Proof/Machine/AngleEvents.lean ====
section
/-!
DEFINITION. The pins of the quadrature encoders (R55 to R61) and the wake of Standby that a count brings (R589).
-/

namespace Sys2Proof.Machine

/-- The accepted level of an input: the filter accepts the level at its pin once that has held for FILT + 1 FBCLK cycles
(R55). -/
def pinLevel (filt : Nat) (p : Pin) (old : Bool) : Bool := if filt < p.held.toNat then p.high else old

/-- The pins of an encoder change: the levels that have held for FILT + 1 cycles are accepted, and a shorter one is ignored
(R55; DEDUCED, log 47). A count of an encoder in Standby wakes the block while WAKEENC is 1. -/
def State.pinsMove (s : State) (e : Nat) (a b z : Pin) : State :=
  let f := s.get (Adr.ANG_CFG e) Bits.ANG_CFG_FILT
  let x := s.enc e
  if a.held.toNat ≤ f ∧ b.held.toNat ≤ f ∧ z.held.toNat ≤ f then s
  else
    let r := s.levels e (pinLevel f a x.a) (pinLevel f b x.b) (pinLevel f z x.z)
    if r.1 ∧ s.get Adr.MRG_STBY Bits.MRG_STBY_WAKEENC = 1 then r.2.standbyWake else r.2

/-- QUAD_COUNT: levels of A and B; Z stays. -/
def execQuadCount (e : Enc) (a b : Pin) (s : State) : Out := .next (s.pinsMove e.val a b ⟨(s.enc e.val).z, 0⟩)

/-- INDEX: levels of A, B and Z. -/
def execIndex (e : Enc) (a b z : Pin) (s : State) : Out := .next (s.pinsMove e.val a b z)

end Sys2Proof.Machine
end

