-- ==== Sys2Proof/Machine/Sha.lean ====
section
/-!
DEFINITION. SHA-256 (FIPS 180-4), which the boot sequencer uses on keys, headers and sections (R617, R618).
-/

namespace Sys2Proof.Machine

/-- Round constants 0 to 7. -/
def shaK0 : List Word := [0x428a2f98, 0x71374491, 0xb5c0fbcf, 0xe9b5dba5,
  0x3956c25b, 0x59f111f1, 0x923f82a4, 0xab1c5ed5]

/-- Round constants 8 to 15. -/
def shaK1 : List Word := [0xd807aa98, 0x12835b01, 0x243185be, 0x550c7dc3,
  0x72be5d74, 0x80deb1fe, 0x9bdc06a7, 0xc19bf174]

/-- Round constants 16 to 23. -/
def shaK2 : List Word := [0xe49b69c1, 0xefbe4786, 0x0fc19dc6, 0x240ca1cc,
  0x2de92c6f, 0x4a7484aa, 0x5cb0a9dc, 0x76f988da]

/-- Round constants 24 to 31. -/
def shaK3 : List Word := [0x983e5152, 0xa831c66d, 0xb00327c8, 0xbf597fc7,
  0xc6e00bf3, 0xd5a79147, 0x06ca6351, 0x14292967]

/-- Round constants 32 to 39. -/
def shaK4 : List Word := [0x27b70a85, 0x2e1b2138, 0x4d2c6dfc, 0x53380d13,
  0x650a7354, 0x766a0abb, 0x81c2c92e, 0x92722c85]

/-- Round constants 40 to 47. -/
def shaK5 : List Word := [0xa2bfe8a1, 0xa81a664b, 0xc24b8b70, 0xc76c51a3,
  0xd192e819, 0xd6990624, 0xf40e3585, 0x106aa070]

/-- Round constants 48 to 55. -/
def shaK6 : List Word := [0x19a4c116, 0x1e376c08, 0x2748774c, 0x34b0bcb5,
  0x391c0cb3, 0x4ed8aa4a, 0x5b9cca4f, 0x682e6ff3]

/-- Round constants 56 to 63. -/
def shaK7 : List Word := [0x748f82ee, 0x78a5636f, 0x84c87814, 0x8cc70208,
  0x90befffa, 0xa4506ceb, 0xbef9a3f7, 0xc67178f2]

/-- The round constants. -/
def shaK : List Word := shaK0 ++ shaK1 ++ shaK2 ++ shaK3 ++ shaK4 ++ shaK5 ++ shaK6 ++ shaK7

/-- The working variables, and the hash value between blocks. -/
structure Sha where
  a : Word := 0x6a09e667
  b : Word := 0xbb67ae85
  c : Word := 0x3c6ef372
  d : Word := 0xa54ff53a
  e : Word := 0x510e527f
  f : Word := 0x9b05688c
  g : Word := 0x1f83d9ab
  h : Word := 0x5be0cd19
  deriving DecidableEq, Repr

/-- The functions of the schedule and of a round. -/
def shaS0 (x : Word) : Word := x.rotateRight 7 ^^^ x.rotateRight 18 ^^^ (x >>> 3)
def shaS1 (x : Word) : Word := x.rotateRight 17 ^^^ x.rotateRight 19 ^^^ (x >>> 10)
def shaE0 (x : Word) : Word := x.rotateRight 2 ^^^ x.rotateRight 13 ^^^ x.rotateRight 22
def shaE1 (x : Word) : Word := x.rotateRight 6 ^^^ x.rotateRight 11 ^^^ x.rotateRight 25

/-- The schedule, latest word first, extended by `n` words. -/
def shaExtend : Nat → List Word → List Word
  | 0, r => r
  | n + 1, r =>
    shaExtend n ((shaS1 (r.getD 1 0) + r.getD 6 0 + shaS0 (r.getD 14 0) + r.getD 15 0) :: r)

/-- One round. -/
def Sha.round (x : Sha) (kw : Word × Word) : Sha :=
  let t1 := x.h + shaE1 x.e + ((x.e &&& x.f) ^^^ (~~~x.e &&& x.g)) + kw.1 + kw.2
  let t2 := shaE0 x.a + ((x.a &&& x.b) ^^^ (x.a &&& x.c) ^^^ (x.b &&& x.c))
  { a := t1 + t2, b := x.a, c := x.b, d := x.c, e := x.d + t1, f := x.e, g := x.f, h := x.g }

/-- The big-endian words of bytes. -/
def beWords : List Byte → List Word
  | a :: b :: c :: d :: r => (a ++ b ++ c ++ d) :: beWords r
  | _ => []

/-- One block of 64 bytes. -/
def Sha.block (x : Sha) (bytes : List Byte) : Sha :=
  let w := (shaExtend 48 (beWords bytes).reverse).reverse
  let y := (shaK.zip w).foldl Sha.round x
  { a := x.a + y.a, b := x.b + y.b, c := x.c + y.c, d := x.d + y.d,
    e := x.e + y.e, f := x.f + y.f, g := x.g + y.g, h := x.h + y.h }

/-- The big-endian bytes of a number, `n` of them. -/
def beBytes (n v : Nat) : List Byte := (leBytes n v).reverse

/-- The padded message. -/
def shaPad (m : List Byte) : List Byte :=
  m ++ [0x80] ++ List.replicate ((119 - m.length % 64) % 64) 0 ++ beBytes 8 (8 * m.length)

/-- The blocks of a padded message. -/
def Sha.blocks : (fuel : Nat) → Sha → List Byte → Sha
  | 0, x, _ => x
  | n + 1, x, l => if l = [] then x else Sha.blocks n (x.block (l.take 64)) (l.drop 64)

/-- The digest's words. -/
def Sha.words (x : Sha) : List Word := [x.a, x.b, x.c, x.d, x.e, x.f, x.g, x.h]
def shaWords (m : List Byte) : List Word :=
  let p := shaPad m
  (Sha.blocks (p.length / 64) {} p).words

/-- The digest's bytes. -/
def sha256 (m : List Byte) : List Byte := (shaWords m).flatMap (fun w => beBytes 4 w.toNat)

end Sys2Proof.Machine
end

