-- ==== Sys2Proof/Machine/Start.lean ====
section
/-!
DEFINITION. Mode changes (R29 to R37), resets and the kinds of start (R564, R610 to R612), the boot sequencer up to the
loaded image (R614 to R619, R622, R626 to R629).
-/

namespace Sys2Proof.Machine

/-! ### BLK_MODE (R29 to R37) -/

/-- EXTEST that is loaded outside TEST acts as BYPASS (R637). -/
def Tap.outsideTest (x : Tap) : Tap := if x.ir = 0 then { x with ir := 31 } else x

/-- The block takes a mode: RUN clears every PSW.GM (R36), TEST and RECOVERY stop the reels (R37), and the end of BOOT
brings relay ports UP and reloads the block watchdog (R509, R559). -/
def State.enterMode (s : State) (m : Nat) : State :=
  let boot := s.mode == modeBoot
  let s := s.put Adr.BLK_MODE Bits.BLK_MODE_MODE m
  let s := if m = modeRun then { s with gmEpoch := s.gmEpoch + 1 } else s
  let s := if m = modeTest ∨ m = modeRecovery then s.reelsStop false else s
  let s := { s with tap := s.tap.outsideTest }
  if boot then (s.relaysReady.put Adr.BLK_WDOG Bits.BLK_WDOG_SEEN 0).blkWdogReload else s

/-- The transition table of R31, for every writer but the boot sequencer. -/
def State.modeAllowed (s : State) (m : Nat) : Bool :=
  match s.mode, m with
  | 1, 2 => s.blockStill
  | 1, 3 | 1, 4 | 2, 1 | 2, 3 | 2, 4 | 4, 3 => true
  | 4, 1 | 4, 2 => s.blockStill
  | _, _ => false

/-- A write of BLK_MODE: REFUSED clears at 1; MODE changes with the key (R29, R31, R32, R34). -/
def State.modeWrite (s : State) (v : Nat) : State :=
  let m := getBits v 0 3
  let s := if getBit v 8 then s.put Adr.BLK_MODE Bits.BLK_MODE_REFUSED 0 else s
  if getBits v 24 8 ≠ 0x5A ∨ m = s.mode then s
  else if s.modeAllowed m ∧ !s.fatal then s.enterMode m
  else s.put Adr.BLK_MODE Bits.BLK_MODE_REFUSED 1

/-! ### What a start keeps (R610, R611) -/

/-- Registers that a pin reset keeps: MRG_ and FLT_ registers, remap and spare state. -/
def keptPin (a : Nat) : Bool :=
  (0x30005000 ≤ a && a < 0x30006000) || (0x30004000 ≤ a && a < 0x30004060) || (0x30004080 ≤ a && a < 0x30004140) ||
    (0x30003100 ≤ a && a < 0x30003500) || ((regTile a).isSome && keptInOff a)

/-- The angle base's counters: ANG_ANGLE, ANG_VEL, ANG_COUNT and ANG_STAT of each encoder. -/
def angleCount (a : Nat) : Bool :=
  let o := (a - 0x30001100) % 0x40
  0x30001100 ≤ a && a < 0x30001200 && (o == 0x10 || o == 0x14 || o == 0x18 || o == 0x24)

/-- Registers that a warm restart keeps: those of a pin reset, and the rest of the always-on unit, with system time, the
angle base's counters, and the boot sequencer's own (DEDUCED, log 34). -/
def keptWarm (a : Nat) : Bool :=
  keptPin a || a == Adr.BLK_MODE || a == Adr.BLK_BOOTCTL || (0x30004000 ≤ a && a < 0x30005000) || bootReg a ||
    a == Adr.ANG_TIME || angleCount a

/-- Memory that lies in the library. -/
def libKey (k : Nat) : Bool := inLibrary k || 0x100000000 ≤ k

/-- The registers that a start keeps. -/
def keep (f : Nat → Bool) (m : Map DWord) : Map DWord := m.filter (fun p => f p.1)

/-- The requests that a restart leaves without a target: the host's are answered NOTREADY, and so is the debug master's
command (DESIGN CHOICE, log 35). -/
def State.dropRequests (s : State) : State :=
  ({ s with host := s.host.map (fun r => if r.done.isNone then { r with done := some (.notReady, 0) } else r) } : State).masterDone
    { code := .notReady }

/-! ### PORESET_N and the rails (R564, R610) -/

/-- Fenced ports read FENCED at any time (R245, R509). -/
def State.showFenced (s : State) : State :=
  let s := (List.range 8).foldl (fun s n => if s.reelFenced n then s.setReelState n reelFencedSt else s) s
  (List.range 4).foldl (fun s p => if s.rlyIsFenced p then s.setRlyState p rlyFenced else s) s

/-- The state after reset that holds what a pin reset keeps. -/
def State.pinReset (s : State) : State :=
  State.showFenced { State.reset with
    pending := s.pending
    regs := keep keptPin s.regs
    shadow := keep mrgOffset s.shadow
    mem := s.mem.filter (fun c => libKey c.1)
    marks := s.marks.filter (fun p => libKey p.1)
    writebacks := s.writebacks.filter libKey
    tilePower := s.tilePower.map (fun p => (p.1, { fmax := p.2.fmax }))
    logSeq := s.logSeq
    powerGood := s.powerGood
    boot := { cold := s.boot.cold }
    tap := s.tap.outsideTest
    master := { s.master with cmd := none, ans := none }
    poreset := true
    health := { wired := s.health.wired }
    fresh := s.fresh }

/-- PORESET_ASSERT: PORESET_N falls. In the fatal state only ALIVE and the outputs change. -/
def State.poresetAssert (s : State) : State :=
  let s := s.masterDone { code := .notReady }
  let m : DbgMaster := match s.master.cmd, s.master.ans with
    | some a, some x => { lastAdr := a, last := x }
    | _, _ => s.master
  if s.fatal then { s with poreset := true, health := { s.health with alive := false } }
  else { s.pinReset with master := m }

/-- POWER_REMOVAL: VDD_CORE is removed, and with it all state (R564). -/
def State.powerRemoval (s : State) : State :=
  { State.reset with pending := s.pending, poreset := s.poreset, powerGood := s.powerGood, fresh := s.fresh }

/-- The fields of BOOT_STAT. -/
def State.bootState (s : State) : Nat := s.get Adr.BOOT_STAT Bits.BOOT_STAT_STATE
def State.setBoot (s : State) (x : Nat) : State := s.put Adr.BOOT_STAT Bits.BOOT_STAT_STATE x
def bsReset : Nat := 0
def bsMarch : Nat := 1
def bsDiscover : Nat := 2
def bsHeader : Nat := 3
def bsLoad : Nat := 4
def bsCommit : Nat := 5
def bsReels : Nat := 6
def bsRelays : Nat := 7
def bsKeepers : Nat := 8
def bsDone : Nat := 9
def bsWait : Nat := 10
def bsFailed : Nat := 11

/-- KIND of a start: 0 cold power-up, 1 pin reset, 2 warm restart. -/
def State.startKind (s : State) : Nat := s.get Adr.BOOT_STAT Bits.BOOT_STAT_KIND

/-- The straps' fields (R612). -/
def State.strapSrc (s : State) : Nat := getBits (s.reg Adr.BOOT_STRAP).toNat 0 2
def State.strapAlt (s : State) : Bool := s.bit Adr.BOOT_STRAP 2
def State.strapRec (s : State) : Bool := s.bit Adr.BOOT_STRAP 3

/-- The start's first march (R610, R622): March C− over every tile, and over the library at a cold power-up; there a
transparent march at a pin reset. -/
def State.startMarch (s : State) : State :=
  let s := (List.range 12).foldl (fun s t => s.marchStart t (2 ^ 31 + 2 * 2 ^ 28 + 2 * 2 ^ 26)) s
  (s.marchStart libUnit (2 ^ 31 + (if s.startKind = 0 then 2 else 1) * 2 ^ 28 + 2 ^ 23)).setBoot bsMarch

/-- Every tile runs at VT 30 and N 40 (R622); at a cold power-up that is its active pair. -/
def State.firstPair (s : State) (cold : Bool) : State :=
  (List.range 12).foldl (fun s t =>
    let s := s.put (Adr.MRG_TSTAT t) Bits.MRG_TSTAT_SLEEP 0
    let s := s.setPower t { s.power t with rail := 30, fclk := 40 }
    if cold then
      (s.setReg (Adr.MRG_PAIR t) (BitVec.ofNat 64 (30 * 256 + 40))).setShadow (Adr.MRG_PAIR t)
        (BitVec.ofNat 64 (30 * 256 + 40))
    else s) s

/-- The encoders and their counters as they stand in another state: they count from the moment the rails are good, while
PORESET_N is low too (R54, R677). -/
def State.countsOf (s from_ : State) : State :=
  { s with
    encoders := from_.encoders
    regs := (keep angleCount from_.regs).foldl (fun m p => mset m p.1 p.2) (keep (fun a => !angleCount a) s.regs) }

/-- POWER_ON_RESET: PORESET_N rises; the straps are sampled. It cannot rise when it is high already, but for the first
start after VDD_CORE was applied. -/
def State.powerOnReset (s : State) (straps : Nat) : State :=
  if !s.poreset ∧ !s.boot.cold then s
  else if s.fatal then ({ s with poreset := false } : State).setReg Adr.BOOT_STRAP (BitVec.ofNat 64 straps)
  else
    let cold := s.boot.cold
    let kept := s.pinReset
    let u : State :=
      if cold then { s.powerRemoval with poreset := false, boot := { cold := false }, tap := s.tap.outsideTest, master := s.master }
      else { kept with poreset := false, master := s.master }
    let u := (u.setReg Adr.BOOT_STRAP (BitVec.ofNat 64 straps)).put Adr.BOOT_STAT Bits.BOOT_STAT_KIND (if cold then 0 else 1)
    (u.firstPair cold).countsOf s

/-! ### The order of sources, failure and fallback (R627, R628) -/

/-- The sources of a start in order: slot 0, slot 1, external 2. -/
def State.sources (s : State) : List Nat := if s.boot.ext then [2] else if s.strapAlt then [1, 0] else [0, 1]

/-- The next source's attempt starts at step 5, or the start fails. -/
def State.nextSource (s : State) : State :=
  match s.sources.find? (fun x => !s.boot.tried.contains x) with
  | none => s.setBoot bsFailed
  | some x =>
    let s := ((s.setBoot bsHeader).put Adr.BOOT_STAT Bits.BOOT_STAT_SLOT x).countSat Adr.BOOT_STAT Bits.BOOT_STAT_ATTEMPTS
    let s := if x = 2 then s.put Adr.BOOT_STAT Bits.BOOT_STAT_BUS 3 else s
    { s with boot := { s.boot with tried := s.boot.tried ++ [x], header := [], next := 0, wrote := [], held := [] } }

/-- The boot sequencer writes a range of memory. At a cold power-up the channel store holds what the image says or zero,
whatever a failed attempt left there, so that the lock of R181 holds none of it (R173, R628). -/
def State.bootStore (s : State) (a : Nat) (bytes : List Byte) : State :=
  (s.clearLinks a bytes.length).writeUnits a (bytes.length + 1) (lockBytes s.mem (s.startKind == 0) a bytes)

/-- The ranges that the attempt wrote hold zero. -/
def State.bootClear (s : State) : State :=
  let s := s.boot.wrote.foldl (fun s r => s.bootStore r.1 (List.replicate r.2 0)) s
  { s with boot := { s.boot with wrote := [] } }

/-- A failed attempt. -/
def State.bootFail (s : State) (reason : Nat) : State :=
  let s := s.put Adr.BOOT_STAT Bits.BOOT_STAT_REASON reason
  if 2 ≤ reason ∧ reason ≤ 10 then s.bootClear.nextSource
  else if reason = 14 then s.bootClear.setBoot bsFailed
  else s.setBoot bsFailed

/-! ### Warm restart (R611) -/

/-- A tile passes through Off, without the checks of R585, and is brought On. -/
def State.cycleTile (s : State) (t : Tile) : State :=
  let s := if s.changing t then s.put (Adr.MRG_PAIR_COMMIT t.val) cPending 0 else s
  (s.switchOff t.val).powerUp t.val

/-- A reel and a relay port as a warm restart leaves them: SAFE sets or the static level, and DOWN, or fenced. -/
def State.restartReel (s : State) (n : Nat) : State :=
  let u := s.reel n
  let s := s.setReel n { passed := u.passed, completed := u.completed }
  s.setReelState n (if s.reelFenced n then reelFencedSt else if s.reelClock then reelSafe else reelDown)
def State.restartRelay (s : State) (p : Nat) : State := s.setRlyState p (if s.rlyIsFenced p then rlyFenced else rlyDown)

/-- A quick check is due in every tile in service (R597). -/
def State.quickAll (s : State) : State :=
  (List.range 12).foldl (fun s t => if s.tileFenced t ∨ (s.power t).check.isSome then s
    else s.setPower t { s.power t with quick := true }) s

/-- A warm restart takes effect; the sequence runs from step 4, or from step 5 with the external image. -/
def State.warmRestart (s : State) (leaving ext : Bool) : State :=
  let s := (s.put Adr.BLK_MODE Bits.BLK_MODE_MODE modeBoot).reelsStop true
  let s := s.dropRequests.put Adr.MRG_STBY Bits.MRG_STBY_IN 0
  let s := allTiles.foldl (fun s t => s.cycleTile t) s
  let s : State := { s with
    regs := keep keptWarm s.regs
    shadow := keep mrgOffset s.shadow
    reports := s.reports.filter (fun r => 12 ≤ r.src / 256)
    rings := [], bus := [], mmWait := [], mmOut := [], mmBeats := [], relays := [], inbox := [], readTags := [],
    readWait := [], storeWait := [], stepTime := true, sweepNext := 0, tap := s.tap.outsideTest
    boot := { cold := false, t0 := s.time, leaving := leaving, ext := ext } }
  let s := (List.range 8).foldl State.restartReel s
  let s := (List.range 4).foldl State.restartRelay s
  let s := (s.setReg Adr.BOOT_KREADY 0).put Adr.BOOT_TRSTAT Bits.BOOT_TRSTAT_PEND 0
  let s := (s.put Adr.BOOT_STAT Bits.BOOT_STAT_KIND 2).put Adr.BOOT_STAT Bits.BOOT_STAT_ATTEMPTS 0
  let s := s.quickAll
  if ext then s.nextSource else s.setBoot bsDiscover

/-! ### BLK_BOOTCTL (R629) -/

/-- A write of BLK_BOOTCTL. -/
def State.bootctlWrite (s : State) (v : Nat) : State :=
  let refused := s.put Adr.BOOT_STAT Bits.BOOT_STAT_CREF 1
  let s := s.setReg Adr.BLK_BOOTCTL (BitVec.ofNat 64 (s.writtenAt Adr.BLK_BOOTCTL v))
  let boot := s.mode == modeBoot
  let wait := boot && s.bootState == bsWait
  let failed := boot && s.bootState == bsFailed
  match getBits v 0 3 with
  | 0 => s
  | 1 => if wait then s.setBoot bsDiscover else if failed then s.warmRestart false false else refused
  | 2 =>
    if wait then ({ s with boot := { s.boot with ext := true } } : State).nextSource
    else if failed then s.warmRestart false true else refused
  | 4 => if !boot ∧ !s.fatal then s.warmRestart false false else refused
  | _ => refused

/-! ### Steps 3 and 4 -/

/-- Whether the sequencer runs: BOOT, not fatal, PORESET_N high (R626). -/
def State.booting (s : State) : Bool := s.mode == modeBoot && !s.fatal && !s.poreset && !s.standby

/-- Whether the quick check of every tile in service is complete. -/
def State.quickDone (s : State) : Bool :=
  (List.range 12).all (fun t => s.tileFenced t || (s.power t).check.isSome)

/-- What the sequencer does of itself: the march starts with the PLLs locked, step 4 or WAIT follows the march, and step
9 follows the addressing passes (R622). -/
def State.bootAdvance (s : State) : State :=
  if !s.booting then s
  else if s.bootState = bsReset then (if getBits s.plls 0 3 = 7 then s.startMarch else s)
  else if s.bootState = bsMarch then
    if (List.range 13).any (fun u => s.marching u) then s
    else if s.strapSrc ≠ 3 then s.quickAll.setBoot bsDiscover
    else if s.quickDone then s.setBoot bsWait
    else s.quickAll
  else if s.bootState = bsReels then
    if (List.range 8).all (fun n => !s.reelEnabled n || (s.reel n).pass.isNone) then s.setBoot bsRelays else s
  else s

/-- FLASH_DISCOVERY (R614). -/
def State.flashDiscovery (s : State) (d : Sfdp) : State :=
  if !s.booting ∨ s.bootState ≠ bsDiscover then s
  else if !d.good then s.bootFail 1
  else
    let octal : Bool := d.xspi && s.strapSrc != 1
    let s := s.setReg Adr.BOOT_FSIZE (d.bytes.setWidth 64)
    (s.put Adr.BOOT_STAT Bits.BOOT_STAT_BUS (if octal then 1 else 2)).nextSource

/-! ### The image's header (R616 to R618) -/

/-- A little-endian field of the header. -/
def hdr (h : List Byte) (o n : Nat) : Nat := leVal ((h.drop o).take n)

/-- Whether bytes are all 0. -/
def hdrZero (h : List Byte) (o n : Nat) : Bool := ((h.drop o).take n).all (· == 0)

/-- A section entry. -/
structure Section where
  type : Nat
  flags : Nat
  off : Nat
  len : Nat
  dest : Nat
  digest : List Byte
  deriving DecidableEq, Repr

/-- Entry `i` of the section table. -/
def sectionAt (h : List Byte) (i : Nat) : Section :=
  let o := 0x100 + 48 * i
  { type := hdr h o 1, flags := hdr h (o + 1) 1, off := hdr h (o + 4) 4, len := hdr h (o + 8) 4,
    dest := hdr h (o + 12) 4, digest := (h.drop (o + 16)).take 32 }

/-- The entries in use, with their places. -/
def sections (h : List Byte) : List Section := (List.range (hdr h 0x1C 1)).map (sectionAt h)

/-- Check 2: FORMAT, the fields that are 0, NSEC, RLYWAIT, KWAIT. -/
def hdrFormat (h : List Byte) : Bool :=
  let n := hdr h 0x1C 1
  hdr h 4 2 == 1 && hdr h 6 2 < 2 && 1 ≤ n && n ≤ 64 && hdr h 0x1D 1 ≤ 190 && 1 ≤ hdr h 0x1E 1 && hdr h 0x1E 1 ≤ 100 &&
    hdrZero h 0x1F 1 && hdr h 0x20 2 < 4096 && hdrZero h 0x22 0x1E && hdrZero h 0x80 0x80 &&
    hdrZero h (0x100 + 48 * n) (48 * (64 - n)) && hdrZero h 0xD40 0x2C0 &&
    (List.range n).all (fun i => hdrZero h (0x102 + 48 * i) 2)

/-- Whether two ranges overlap. -/
def overlaps (a n b m : Nat) : Bool := a < b + m && b < a + n

/-- Whether a MEM destination lies wholly in one tile's scratchpads, one tile's memory, or library memory outside LINE
and RET (R210). -/
def destOk (a n : Nat) : Bool :=
  let last := a + n - 1
  if n = 0 then (memTile a).isSome || inLibrary a
  else if inLibrary a then
    inLibrary last && (List.range 8).all (fun r => !overlaps a n (0x20208000 + 0x40000 * r) 0x30000)
  else match memTile a, memTile last with
    | some t, some u => t == u && (a % 0x1000000 < 0x800000) == (last % 0x1000000 < 0x800000)
    | _, _ => false

/-- Check 7: the section table. `half`: half the flash, none for the external image. -/
def tableOk (h : List Byte) (half : Option Nat) : Bool :=
  let l := sections h
  let len := hdr h 0x18 4
  let fits : Bool := match half with
    | some x => len ≤ x
    | none => true
  let mems := l.filter (fun x => x.type == 2)
  fits && l.all (fun x => 1 ≤ x.type && x.type ≤ 5 && x.flags < 2 && x.off % 4096 == 0 && 0x1000 ≤ x.off &&
      x.off + x.len ≤ len && (if x.type = 2 then x.dest % 8 == 0 && destOk x.dest x.len else x.dest == 0)) &&
    mems.zipIdx.all (fun p => mems.zipIdx.all (fun q => p.2 == q.2 || !overlaps p.1.dest p.1.len q.1.dest q.1.len)) &&
    l.countP (fun x => x.type == 3) ≤ 1 && l.countP (fun x => x.type == 4) == 1 && l.countP (fun x => x.type == 5) ≤ 1

/-- The trust anchor (R618): its words are those of the digest, the first word first. -/
def anchorWords : List Word := (List.range 8).map Config.bootAnchor

/-- The reason for which a header fails, in the order of R618. -/
def headerReason (h : List Byte) (half : Option Nat) : Option Nat :=
  let key := (h.drop 0x40).take 64
  if hdr h 0 4 ≠ 0x534B4430 then some 3
  else if !hdrFormat h then some 4
  else if hdr h 8 4 ≠ 0x00C00201 then some 5
  else if hdr h 0x0F 1 ≠ 2 then some 6
  else if shaWords key ≠ anchorWords then some 7
  else if !Config.ecdsaVerify key (sha256 (h.take 0xD00)) ((h.drop 0xD00).take 64) then some 8
  else if !tableOk h half then some 9
  else none

/-- Half the flash, unless the source is the external image. -/
def State.halfFlash (s : State) : Option Nat :=
  if s.boot.ext then none else some ((s.reg Adr.BOOT_FSIZE).toNat / 2)

/-! ### Loading (R619) -/

/-- The sections in loading order, the REPAIR section first. -/
def loadOrder (h : List Byte) : List Nat :=
  let n := List.range (hdr h 0x1C 1)
  n.filter (fun i => (sectionAt h i).type == 3) ++ n.filter (fun i => (sectionAt h i).type != 3)

/-- Whether a start loads a section: COLD ones only at a cold power-up, none that addresses a fenced tile (R626). -/
def State.loads (s : State) (x : Section) : Bool :=
  (s.startKind == 0 || !(x.flags % 2 == 1 || x.type == 3 || x.type == 5)) &&
    !(x.type == 2 && (match memTile x.dest with
      | some t => s.tileFenced t
      | none => false))

/-- The sequencer comes to the next section that it loads, or to step 7. -/
def State.loadNext (s : State) : State :=
  let h := s.boot.header
  let rest := (loadOrder h).drop s.boot.next
  let skip := (rest.takeWhile (fun i => !s.loads (sectionAt h i))).length
  let s := { s with boot := { s.boot with next := s.boot.next + skip } }
  if rest.length ≤ skip then
    (s.setBoot bsCommit).setReg Adr.BOOT_IMGID (BitVec.ofNat 64 (hdr h 0x14 4))
  else s

/-- HEADER_CHECK. -/
def State.headerCheck (s : State) (bytes : List Byte) (readOk : Bool) : State :=
  if !s.booting ∨ s.bootState ≠ bsHeader then s
  else if !readOk then s.bootFail (if s.boot.ext then 14 else 2)
  else match headerReason bytes s.halfFlash with
    | some r => s.bootFail r
    | none => (({ s with boot := { s.boot with header := bytes, next := 0 } } : State).setBoot bsLoad).loadNext

/-- SECTION_LOAD: the next section is read, written or held, and hashed. -/
def State.sectionLoad (s : State) (bytes : List Byte) (readOk : Bool) : State :=
  if !s.booting ∨ s.bootState ≠ bsLoad then s
  else
    let h := s.boot.header
    match (loadOrder h)[s.boot.next]? with
    | none => s
    | some i =>
      let x := sectionAt h i
      let data := bytes.take x.len
      if !readOk then s.bootFail (if s.boot.ext then 14 else 2)
      else
        let s : State :=
          if x.type = 2 then
            let w := s.bootStore x.dest data
            { w with boot := { w.boot with wrote := w.boot.wrote ++ [(x.dest, data.length)] } }
          else { s with boot := { s.boot with held := mset s.boot.held i data } }
        if sha256 data ≠ x.digest then s.bootFail 10
        else ({ s with boot := { s.boot with next := s.boot.next + 1 } } : State).loadNext

/-! ### The target mode (R624) -/

/-- The tiles whose keepers are released: KMASK, fenced tiles left out. -/
def State.keepers (s : State) : List Nat :=
  (List.range 12).filter (fun t => getBit (hdr s.boot.header 0x20 2) t && !s.tileFenced t)

/-- The mode that the start ends in. -/
def State.targetMode (s : State) : Nat :=
  if getBit (hdr s.boot.header 6 2) 0 ∨ (s.strapRec ∧ s.startKind ≠ 2) then modeRecovery
  else if s.boot.leaving then s.get Adr.MRG_STBY Bits.MRG_STBY_SMODE
  else modeRun

/-- The target mode is entered when every released keeper has reported. -/
def State.keepersReady (s : State) : State :=
  if s.booting ∧ s.bootState = bsKeepers ∧ s.keepers.all (fun t => s.bit Adr.BOOT_KREADY t) then
    let us := (s.time - s.boot.t0).toNat / 1000
    ((s.setBoot bsDone).setReg Adr.BOOT_TIME (BitVec.ofNat 64 (us % 2 ^ 32))).enterMode s.targetMode
  else s

/-- A write of BOOT_KDONE by an engine E0 in ring 0. -/
def State.kdone (s : State) (who : Initiator) : State :=
  match who with
  | .engine g => (s.setBit Adr.BOOT_KREADY (tileOf g.val)).keepersReady
  | _ => s

/-- KEEPER_WAIT_TIMEOUT: KWAIT has passed. -/
def State.keeperTimeout (s : State) : State :=
  if s.booting ∧ s.bootState = bsKeepers then s.bootFail 12 else s

/-! ### The commands -/

/-- MODE_CHANGE: a write of BLK_MODE (R30). -/
def execModeChange (who : Initiator) (v : Word) (s : State) : Out :=
  .next (s.commandOk who .mode 0 Adr.BLK_MODE (fun s => s.modeWrite v.toNat))

/-- POWER_ON_RESET. -/
def execPowerOnReset (straps : BitVec 8) (s : State) : Out := .next (s.powerOnReset straps.toNat)

/-- PORESET_ASSERT. -/
def execPoresetAssert (s : State) : Out := .next s.poresetAssert

/-- POWER_REMOVAL. -/
def execPowerRemoval (s : State) : Out := .next s.powerRemoval

/-- QUICK_CHECK. -/
def execQuickCheck (t : Tile) (d : CheckData) (s : State) : Out := .next (s.quickCheck t.val d).bootAdvance

/-- MARCH_COMPLETE. -/
def execMarchComplete (u : Fin 13) (fails : List (Nat × Nat)) (s : State) : Out :=
  let s := s.marchComplete u.val fails
  .next (if h : u.val < 12 then s.serveOff ⟨u.val, h⟩ else s).bootAdvance

/-- FLASH_DISCOVERY. -/
def execFlashDiscovery (d : Sfdp) (s : State) : Out := .next (s.flashDiscovery d)

/-- HEADER_CHECK. -/
def execHeaderCheck (bytes : List Byte) (readOk : Bool) (s : State) : Out := .next (s.headerCheck bytes readOk)

/-- SECTION_LOAD. -/
def execSectionLoad (bytes : List Byte) (readOk : Bool) (s : State) : Out := .next (s.sectionLoad bytes readOk)

/-- BOOT_KDONE. -/
def execBootKdone (who : Initiator) (s : State) : Out :=
  .next (s.commandOk who .kdone 0 Adr.BOOT_KDONE (fun s => s.kdone who))

/-- KEEPER_WAIT_TIMEOUT. -/
def execKeeperWaitTimeout (s : State) : Out := .next s.keeperTimeout

/-- BOOT_GO. -/
def execBootGo (who : Initiator) (s : State) : Out :=
  .next (s.commandOk who .r0 0 Adr.BLK_BOOTCTL (fun s => s.bootctlWrite 1))

/-- BOOT_EXT. -/
def execBootExt (who : Initiator) (s : State) : Out :=
  .next (s.commandOk who .r0 0 Adr.BLK_BOOTCTL (fun s => s.bootctlWrite 2))

/-- BOOT_RESTART. -/
def execBootRestart (who : Initiator) (s : State) : Out :=
  .next (s.commandOk who .r0 0 Adr.BLK_BOOTCTL (fun s => s.bootctlWrite 4))

/-- SYSTEM_TIME_TICK: one SCLK tick. A keeper whose tile has been fenced is waited for no longer (R626). -/
def execSystemTimeTick (s : State) : Out :=
  .next (if s.poreset then s else s.timeTick.watchTick.sweepTick.bootAdvance.keepersReady)

end Sys2Proof.Machine
end

