-- ==== Sys2Proof/Machine/FenceCmd.lean ====
section
/-!
DEFINITION. Writes of FLT_FENCE: fences and releases by software (R553 to R557, R182).
-/

namespace Sys2Proof.Machine

/-- How many units a KIND numbers (R553). -/
def fenceCount (kind : Nat) : Nat :=
  match kind with
  | 0 => 0x40000
  | 1 => 512
  | 2 => 8
  | 3 => 4
  | 4 => 192
  | 5 | 6 => 12
  | _ => 0

/-- Whether the last addressing pass found a channel: its position, and its number among the node's (R171, R172, R205). -/
def State.channelFound (s : State) (c : Nat) : Bool :=
  let n := c / 32768
  let p := c / 512 % 64
  p < s.get (Adr.REEL_STAT n) Bits.REEL_STAT_NODES && c % 512 ≤ getBits (s.nodeWord n p 1) 16 10

/-- Whether a channel's STATE is FENCED (R173). -/
def State.channelFenced (s : State) (c : Nat) : Bool := (memRd s.mem (0x20000000 + 8 * c + 7)).toNat / 16 == 2

/-- The fence of a channel: the library controller writes byte 7 of its context (R182); the context of a channel that the
addressing pass did not find it never writes (R172), and of one already fenced nothing changes (R554). -/
def State.fenceChannel (s : State) (c : Nat) : State :=
  if s.channelFound c ∧ s.channelFenced c = false then s.store true (0x20000000 + 8 * c + 7) [0x20] else s

/-- A node's fence, from the next cycle start (R244). -/
def State.setNode (s : State) (ix x : Nat) : State := s.put (Adr.FLT_FNODE (ix / 64)) ⟨ix % 64, 1⟩ x

/-- A fence by software. -/
def State.fenceSoft (s : State) (kind ix : Nat) : State :=
  match kind with
  | 0 => s.fenceChannel ix
  | 1 => s.setNode ix 1
  | 2 => if h : ix < 8 then s.fenceReel ⟨ix, h⟩ else s
  | 3 => s.fenceRelay ix
  | 4 => if h : ix < 192 then s.fenceEngSoft ⟨ix, h⟩ else s
  | 5 => if h : ix < 12 then s.fenceFigure ⟨ix, h⟩ else s
  | _ => if h : ix < 12 then s.fenceTileSoft ⟨ix, h⟩ else s

/-- An engine is released: idle, and it takes contexts again. -/
def State.releaseEng (s : State) (g : Nat) : State :=
  if s.engFenced g then (s.modEng g (fun e => { e with frozen := false })).clrBit (Adr.FLT_FENG (tileOf g)) (engOf g) else s

/-- A figure unit is released. -/
def State.releaseFig (s : State) (t : Nat) : State := s.clrBit Adr.FLT_FTILE (16 + t)

/-- Whether a fenced tile's pair still shows a wire fault. A tile that has raised none shows none; of one that has, the pair
is read again now: a free value. -/
def State.wireShows (s : State) (t : Nat) : Bool × State :=
  if s.health.wired.contains t then
    let r := s.free
    (bitOf r.1 0, r.2)
  else (false, s)

/-- A tile is released: its fences go, its memories are cleared, its stores reloaded, its contexts FREE, and its restart
is asked for (R359, R553, R557). -/
def State.releaseTile (s : State) (t : Nat) : State :=
  let s : State := { s with
    reports := s.reports.filter (fun r => !r.from_ t || r.last)
    health := { s.health with wired := s.health.wired.filter (· != t) }
    engines := s.engines.map (fun p => if tileOf p.1 = t then (p.1, { nextTag := p.2.nextTag }) else p)
    ready := mdel s.ready t
    regs := s.regs.filter (fun p => !(regTile p.1 == some t && 0x8000 ≤ p.1 % 0x80000 && p.1 % 0x80000 < 0xC000)) }
  let s := (s.put Adr.FLT_FTILE ⟨t, 1⟩ 0).releaseFig t
  let s := s.setReg (Adr.FLT_FENG t) 0
  if s.sleep t = 3 then s else ((s.zeroTarget t (BitVec.ofNat 32 (2 * 2 ^ 26))).loadStores t).askRestart t

/-- A refused write of FLT_FENCE. -/
def State.fenceRefused (s : State) : State := s.put Adr.FLT_FSTAT Bits.FLT_FSTAT_FREF 1

/-- A release by software, refused as R554 says; of a unit that hardware fenced in the same FBCLK cycle it does nothing
(R556; DESIGN CHOICE, log 135: the same cycle is that without an ANGLE_UPDATE between). -/
def State.releaseSoft (s : State) (kind ix : Nat) : State :=
  match kind with
  | 0 => s.fenceRefused
  | 1 => s.setNode ix 0
  | 2 => s.releaseReel ix
  | 3 => s.releaseRelay ix
  | 4 =>
    if s.tileFenced (tileOf ix) then s.fenceRefused
    else if s.hwFenced.contains (4, ix) then s else s.releaseEng ix
  | 5 =>
    if s.tileFenced ix then s.fenceRefused
    else if s.hwFenced.contains (5, ix) then s else s.releaseFig ix
  | _ =>
    if s.tileFenced ix ∧ !s.hwFenced.contains (6, ix) then
      let w := s.wireShows ix
      if w.1 then w.2.fenceRefused else w.2.releaseTile ix
    else s

/-- A write of FLT_FENCE (R554). -/
def State.fenceWrite (s : State) (v : Nat) : State :=
  let kind := getBits v 24 4
  let ix := getBits v 0 18
  if s.fatal ∨ fenceCount kind ≤ ix then s.fenceRefused
  else match getBits v 28 4 with
    | 1 => s.fenceSoft kind ix
    | 2 => s.releaseSoft kind ix
    | _ => s.fenceRefused

/-- The word of a command of FLT_FENCE. -/
def fenceWord (op kind ix : Nat) : Nat := op * 2 ^ 28 + kind % 16 * 2 ^ 24 + ix % 2 ^ 18

/-- FENCE. -/
def execFence (who : Initiator) (kind : BitVec 4) (ix : BitVec 18) (s : State) : Out :=
  .next (s.commandOk who .r0 0 Adr.FLT_FENCE (fun s => s.fenceWrite (fenceWord 1 kind.toNat ix.toNat)))

/-- FENCE_RELEASE. -/
def execFenceRelease (who : Initiator) (kind : BitVec 4) (ix : BitVec 18) (s : State) : Out :=
  .next (s.commandOk who .r0 0 Adr.FLT_FENCE (fun s => s.fenceWrite (fenceWord 2 kind.toNat ix.toNat)))

end Sys2Proof.Machine
end

