-- ==== Sys2Proof/Machine/DebugRegs.lean ====
section
/-!
DEFINITION. The registers of the debug unit that act (R644, R646, R647, R656 to R659): debug requests, triggers, post
boxes.
-/

namespace Sys2Proof.Machine

/-! ### Debug requests -/

/-- HALT for an engine (R647). -/
def State.halt (s : State) (g : Nat) : State :=
  if s.engFenced g || s.tileFenced (tileOf g) then s else (s.requestDebug g 1).wake (tileOf g)

/-- A write of DBG_ECTLg: STEP, CLRPEND, and then HALT. -/
def State.ectlWrite (s : State) (g v : Nat) : State :=
  let s := s.put (Adr.DBG_ECTL g) Bits.DBG_ECTL_STEP (v / 4)
  let s := if getBit v 1 then s.modEng g (fun e => { e with dbgPend := false }) else s
  if getBit v 0 then s.halt g else s

/-- DBG_ESTATg as it reads. -/
def State.estat (s : State) (g : Nat) : DWord :=
  let e := s.eng g
  let fenced := s.engFenced g || s.tileFenced (tileOf g)
  BitVec.ofNat 64 (bnat e.inMon * 2 ^ 31 + bnat e.dbgPend * 2 ^ 30 + bnat fenced * 2 ^ 29 +
    bnat (e.dbgPend && !s.placed g) * 2 ^ 28 + e.dbgReason % 16 * 2 ^ 24 + e.dbgTrg % 4 * 2 ^ 22 + e.watchTrg % 4 * 2 ^ 20)

/-! ### Triggers -/

/-- A register of a trigger: CTL, ENG, CNT. -/
def trgReg (t n r : Nat) : Nat := Adr.DBG_TRG_CTL t n + 4 * r

/-- A write of a trigger's register. A write of CTL or CNT reloads LEFT and, with SEQ 1, disarms the trigger. -/
def State.triggerWrite (s : State) (t n r v : Nat) : State :=
  let a := trgReg t n r
  let s := s.setReg a (BitVec.ofNat 64 (s.writtenAt a v))
  if r = 1 then s
  else
    let cnt := Adr.DBG_TRG_CNT t n
    let s := s.put cnt Bits.DBG_TRG_CNT_LEFT (s.get cnt Bits.DBG_TRG_CNT_RELOAD)
    if s.get (Adr.DBG_TRG_CTL t n) Bits.DBG_TRG_CTL_SEQ = 1 then s.put (Adr.DBG_TRG_CTL t n) Bits.DBG_TRG_CTL_ARMED 0 else s

/-! ### Post boxes -/

/-- A write of DBG_PB_INg by the debug master. -/
def State.pbInWrite (s : State) (g : Nat) (v : DWord) : State :=
  let st := Adr.DBG_PB_STAT g
  if s.get st Bits.DBG_PB_STAT_INFULL = 1 then s.put st Bits.DBG_PB_STAT_INOVR 1
  else ((s.setReg (Adr.DBG_PB_IN g) (BitVec.ofNat 64 (v.toNat % 2 ^ 32))).put st Bits.DBG_PB_STAT_INFULL 1).ringHw (384 + g)

/-- A read of DBG_PB_INg: engine g's clears INFULL. -/
def State.pbInTaken (s : State) (who : Initiator) (g : Nat) : State :=
  match who with
  | .engine e => if e.val = g then s.put (Adr.DBG_PB_STAT g) Bits.DBG_PB_STAT_INFULL 0 else s
  | _ => s

/-- A write of DBG_PB_OUTg by engine g. -/
def State.pbOutWrite (s : State) (g : Nat) (v : DWord) : State :=
  let st := Adr.DBG_PB_STAT g
  if s.get st Bits.DBG_PB_STAT_OUTFULL = 1 then s.put st Bits.DBG_PB_STAT_OUTOVR 1
  else (s.setReg (Adr.DBG_PB_OUT g) (BitVec.ofNat 64 (v.toNat % 2 ^ 32))).put st Bits.DBG_PB_STAT_OUTFULL 1

/-- A write of DBG_PB_STATg: OUTFULL is the debug master's alone. -/
def State.pbStatWrite (s : State) (who : Initiator) (g v : Nat) : State × Code :=
  let a := Adr.DBG_PB_STAT g
  match who with
  | .engine _ => if getBit v 1 then (s, .err) else (s.setReg a (BitVec.ofNat 64 (s.writtenAt a v)), .ok)
  | _ => (s.setReg a (BitVec.ofNat 64 (s.writtenAt a v)), .ok)

/-! ### The commands -/

/-- HALT: a write of HALT, STEP as it stands. -/
def execHalt (who : Initiator) (g : Eng) (s : State) : Out :=
  .next (s.commandOk who .dbg 0 (Adr.DBG_ECTL g.val) (fun s => s.halt g.val))

/-- CLRPEND: a write of CLRPEND, STEP as it stands. -/
def execClrpend (who : Initiator) (g : Eng) (s : State) : Out :=
  .next (s.commandOk who .dbg 0 (Adr.DBG_ECTL g.val) (fun s => s.modEng g.val (fun e => { e with dbgPend := false })))

/-- TRIGGER_WRITE. -/
def execTriggerWrite (who : Initiator) (t : Tile) (n : Fin 4) (r : Fin 3) (v : Word) (s : State) : Out :=
  .next (s.commandOk who .dbg 0 (trgReg t.val n.val r.val) (fun s => s.triggerWrite t.val n.val r.val v.toNat))

/-- PB_IN_WRITE. -/
def execPbInWrite (who : Initiator) (g : Eng) (v : Word) (s : State) : Out :=
  .next (s.commandOk who .pbIn 0 (Adr.DBG_PB_IN g.val) (fun s => s.pbInWrite g.val (v.setWidth 64)))

/-- PB_IN_READ. -/
def execPbInRead (who : Initiator) (g : Eng) (s : State) : Out :=
  .next (s.readCommand who (Adr.DBG_PB_IN g.val) (fun s => s.reg (Adr.DBG_PB_IN g.val)) (fun s => s.pbInTaken who g.val))

/-- PB_OUT_WRITE. -/
def execPbOutWrite (who : Initiator) (g : Eng) (v : Word) (s : State) : Out :=
  .next (s.command who .pbOut 0 g.val (Adr.DBG_PB_OUT g.val) (fun s => (s.pbOutWrite g.val (v.setWidth 64), .ok)))

end Sys2Proof.Machine
end

