-- ==== Sys2Proof/Machine/Bus.lean ====
section
/-!
DEFINITION. Accesses of register space (R9 to R16, R38, R39, R680): what each register reads as, what a read and a write
of it do, and how they are answered.
-/

namespace Sys2Proof.Machine

/-- How an access comes out: answered, answered later, or turned away at the engine as privilege. -/
inductive Served where
  | done (c : Code)
  | later
  | priv (g : Nat)
  deriving DecidableEq, Repr

/-! ### Reads -/

/-- FIG_STAT as it reads (R168). -/
def State.figStat (s : State) (t : Nat) : DWord :=
  let u := s.figure t
  let v := s.reg (Adr.FIG_STAT t)
  let v := putFld v Bits.FIG_STAT_QCNT u.queue.length
  let v := putFld v Bits.FIG_STAT_RUN (bnat u.running.isSome)
  putFld v Bits.FIG_STAT_FENCED (bnat (s.figFenced t))

/-- BLK_MMSTAT as it reads: reads and writes outstanding at the memory master port (R681). -/
def State.mmStat (s : State) : DWord :=
  let v := putFld (s.reg Adr.BLK_MMSTAT) Bits.BLK_MMSTAT_OUTR (s.mmOut.countP (fun p => p.1 < 64))
  putFld v Bits.BLK_MMSTAT_OUTW (s.mmOut.countP (fun p => 64 ≤ p.1))

/-- A caller descriptor word as it reads: context 0 has PRIO 15 and E0 alone (R361). -/
def State.ctxWord (s : State) (t a : Nat) : DWord :=
  if a = Adr.CAL_CTX_CTL t 0 then
    putFld (putFld (s.reg a) Bits.CAL_CTX_CTL_PRIO 15) Bits.CAL_CTX_CTL_AFF 1
  else s.reg a

/-- Whether a register shows the progress of a march that runs: its count moves with the march's clock, and what a read meets
is open (R480, R481; log 128). -/
def State.progOpen (s : State) (r : RegRef) : Bool :=
  (r.adr == Adr.TIL_MARCHST r.unit || r.adr == Adr.BLK_LIBMARCHST) && fldOf (s.reg r.adr) Bits.TIL_MARCHST_BUSY == 1

/-- What a register without an action of its own reads: the fields that follow other state, and BOOT_ANCHORn. -/
def State.plainValue (s : State) (r : RegRef) : DWord :=
  let v := s.reg r.adr
  if s.progOpen r then putFld v Bits.TIL_MARCHST_PROG s.free.1.toNat
  else if r.adr = Adr.MRG_TSTAT r.unit then putFld v Bits.MRG_TSTAT_PWHOLD (bnat (s.power r.unit).pwake.isSome)
  else if r.adr = Adr.DBG_STAT then putFld v Bits.DBG_STAT_MBUSY (bnat s.master.cmd.isSome)
  else if Adr.BOOT_ANCHOR 0 ≤ r.adr ∧ r.adr ≤ Adr.BOOT_ANCHOR 7 then
    (Config.bootAnchor ((r.adr - Adr.BOOT_ANCHOR 0) / 4)).setWidth 64
  else v

/-- What a register reads. -/
def State.regValue (s : State) (who : Initiator) (r : RegRef) : DWord :=
  match r.row.act with
  | .angTime | .angTtime => s.time
  | .figStat => s.figStat r.unit
  | .calStat => putFld (s.reg r.adr) Bits.CAL_STAT_NREADY (s.readyList r.unit).length
  | .calCtx => s.ctxWord r.unit r.adr
  | .tilPsum => s.psum r.unit
  | .claim => BitVec.ofNat 64 (s.claimRead who r.unit r.i)
  | .fltSafe => putFld (s.reg r.adr) Bits.FLT_SAFE_STATE (bnat s.safeAsserted)
  | .dbgEstat => s.estat r.i
  | .hpstat => putFld (s.reg r.adr) Bits.BLK_HPSTAT_OUTST s.host.length
  | .mmstat => s.mmStat
  | _ => s.plainValue r

/-- The bits of a register set to 0. -/
def State.clearMask (s : State) (a m : Nat) : State :=
  s.setReg a (BitVec.ofNat 64 (bandN (s.reg a).toNat (2 ^ 64 - 1 - m)))

/-- The side effect of a read by any initiator but the debug master (R16, R642). -/
def State.regTaken (s : State) (who : Initiator) (r : RegRef) : State :=
  match r.row.act with
  | .claim => s.claimed who r.unit r.i
  | .pbIn => s.pbInTaken who r.i
  | _ => if s.progOpen r then s.free.2 else if r.row.rc = 0 then s else s.clearMask r.adr r.row.rc

/-- Whether an access to a lookup table or predicate register is held (R150). -/
def State.tableHeld (s : State) (who : Initiator) (r : RegRef) : Bool :=
  r.row.act == .figTable && (s.figure r.unit).running.isSome && (match who with
    | .engine _ | .host | .debug => true
    | _ => false)

/-- The access waits for its place between two figures. -/
def State.holdTable (s : State) (who : Initiator) (r : RegRef) (v : Option DWord) : State :=
  let u := s.figure r.unit
  s.setFigure r.unit { u with held := u.held ++ [{ who := who, id := s.hostNow, adr := r.adr, val := v }] }

/-- Whether an access of `n` bytes has a register's full width (R11). -/
def RegRow.fits (r : RegRow) (n : Nat) : Bool := n == (if r.wide then 8 else 4)

/-- A read of `n` bytes in register space: how it is answered, and its value. -/
def State.regRead (s : State) (who : Initiator) (a n : Nat) : Served × DWord × State :=
  match s.targetCode who a false, regRef a with
  | .ok, some r =>
    if !r.row.fits n then (.done .err, 0, s)
    else if r.view then (.done .ok, if r.row.group then s.shadowReg r.adr else 0, s)
    else
      let s := s.served a
      if s.tableHeld who r then (.later, 0, s.holdTable who r none)
      else (.done .ok, s.regValue who r, if who = .debug then s else s.regTaken who r)
  | .ok, none => (.done .err, 0, s)
  | c, _ => (.done c, 0, s)

/-! ### Writes -/

/-- A register takes a value under its access codes. -/
def State.regStore (s : State) (r : RegRef) (v : Nat) : State :=
  s.setReg r.adr (BitVec.ofNat 64 (r.row.written (s.reg r.adr).toNat v))

/-- A write of a descriptor word (R360, R361). -/
def State.ctxWrite (s : State) (r : RegRef) (v : Nat) : State :=
  let w := r.adr % 0x20
  let st := s.ctxState r.unit r.i
  if 4 ≤ w ∧ w ≤ 0x10 then
    (if st = ctxFree ∨ st = ctxHeld then s.regStore r v else s.put (Adr.CAL_STAT r.unit) Bits.CAL_STAT_WREF 1)
  else if r.i = 0 then s
  else s.regStore r v

/-- A write of UC_GOLDV or UC_GOLDF (R497, R503). -/
def State.goldWrite (s : State) (r : RegRef) (v : Nat) : State :=
  let st := Adr.UC_STAT r.unit
  if s.get st Bits.UC_STAT_BUSY = 1 then s
  else if r.row.limits.all (fun l => l.allows v) then s.regStore r v
  else s.put st Bits.UC_STAT_GREF 1

/-- A write of a register without an action of its own. -/
def State.plainWrite (s : State) (r : RegRef) (v : Nat) : State :=
  if r.adr = Adr.UC_MASK r.unit ∧ s.get (Adr.UC_STAT r.unit) Bits.UC_STAT_BUSY = 1 then s else s.regStore r v

/-- A write of TIL_VBASE: every engine of the tile loads its vector lines again (R415). -/
def State.vbaseWrite (s : State) (t v : Nat) : State :=
  let a := Adr.TIL_VBASE t
  let s := s.setReg a (BitVec.ofNat 64 (s.writtenAt a v))
  (List.range 16).foldl (fun s e => s.loadVectors (16 * t + e)) s

/-- A write of DBG_ACk_CTL: RANGE of an odd comparator is unchanged (R658). -/
def State.acCtlWrite (s : State) (r : RegRef) (v : Nat) : State :=
  if r.j % 2 = 1 then s.regStore r (putBits v 28 1 (getBits (s.reg r.adr).toNat 28 1)) else s.regStore r v

/-- A write of CAL_PARK by an engine of the tile (R364): the engine holds until its PARK event. -/
def State.parkWrite (s : State) (who : Initiator) (t v : Nat) : State :=
  match who with
  | .engine g =>
    if v % 4 = 3 then s.cmdRefused t else s.modEng g.val (fun e => { e with hold := .park (v % 4) })
  | _ => s

/-- The writes of the block's registers. -/
def State.blockWrite (s : State) (who : Initiator) (r : RegRef) (v : Nat) : State :=
  match r.row.act with
  | .blkMode => s.modeWrite v
  | .bootctl => s.bootctlWrite v
  | .kdone => s.kdone who
  | .angCfg => (s.regStore r v).typeOff r.i
  | .angCpr => s.cprWrite r.i (r.row.written (s.reg r.adr).toNat v)
  | .angTimeset => s.timeset (BitVec.ofNat 64 v)
  | .angTrim => s.trimWrite (BitVec.ofNat 64 v)
  | .dbdesc => s.dbdescWrite r.i (BitVec.ofNat 64 v)
  | .libMarch => s.marchWrite libUnit v
  | .fltAck => s.fltAck v
  | .fltTest => s.fltTest v
  | .fltFence => s.fenceWrite v
  | .blkWdog => s.blkWdogWrite who v
  | .blkWdcfg => s.blkWdcfgWrite v
  | .mrgStby => s.stbyWrite v
  | .mrgSweep => s.sweepWrite v
  | _ => s.plainWrite r v

/-- The writes of a tile's registers. -/
def State.tileWrite (s : State) (who : Initiator) (t : Tile) (r : RegRef) (v : Nat) : State :=
  match r.row.act with
  | .cmpCtl => s.cmpWrite t.val r.i 0 v
  | .cmpVal => s.cmpWrite t.val r.i 1 v
  | .cmpInc => s.cmpWrite t.val r.i 2 v
  | .cmpStat => s.cmpWrite t.val r.i 3 v
  | .figCtl => if getBit v 0 then s.figAbort t else s
  | .calCmd => s.calCmd t.val (getBits v 28 4) (v % 512)
  | .calReady => s.calReady who t.val (v % 512)
  | .calPark => s.parkWrite who t.val v
  | .calCtx => s.ctxWrite r v
  | .tilVbase => s.vbaseWrite t.val v
  | .tilMarch => s.marchWrite t.val v
  | .ucGold => s.goldWrite r v
  | .ucCmd => s.ucWrite t.val v
  | .tilWdcfg => s.wdcfgWrite t.val v
  | .tilWdsvc => s.wdsvc who t.val
  | .mrgPwr => s.pwrWrite t v
  | _ => s.plainWrite r v

/-- The writes of the reel hub's registers. -/
def State.reelWrite (s : State) (who : Initiator) (r : RegRef) (v : Nat) : Served × State :=
  match r.row.act with
  | .reelCtl => (.done .ok, s.reelCtlWrite r.unit v)
  | .reelClose =>
    let x := s.reelCloseWrite r.unit v
    (.done x.2, x.1)
  | .reelExp =>
    let x := s.reelExpWrite who r.unit v
    (match x.2 with
      | some c => .done c
      | none => .later, x.1)
  | _ => (.done .ok, s.plainWrite r v)

/-- The writes of the debug unit's registers. -/
def State.debugWrite (s : State) (who : Initiator) (r : RegRef) (v : Nat) : Served × State :=
  match r.row.act with
  | .dbgEctl => (.done .ok, s.ectlWrite r.i v)
  | .pbIn => (.done .ok, s.pbInWrite r.i (BitVec.ofNat 64 v))
  | .pbOut => (.done .ok, s.pbOutWrite r.i (BitVec.ofNat 64 v))
  | .pbStat =>
    let x := s.pbStatWrite who r.i v
    (.done x.2, x.1)
  | .dbgAcCtl => (.done .ok, s.acCtlWrite r v)
  | .trgCtl => (.done .ok, s.triggerWrite r.i r.j 0 v)
  | .trgEng => (.done .ok, s.triggerWrite r.i r.j 1 v)
  | .trgCnt => (.done .ok, s.triggerWrite r.i r.j 2 v)
  | _ => (.done .ok, s.plainWrite r v)

/-- How a write comes out whose answer is at hand, or comes later. -/
def servedBy (x : State × Option Code) : Served × State :=
  (match x.2 with
    | some c => .done c
    | none => .later, x.1)

/-- A write that its register accepts: to the shadow of a commit group, to a COMMIT register, to a held table, or to the
register. -/
def State.regEffect (s : State) (who : Initiator) (ring : Nat) (a : Nat) (r : RegRef) (v : Nat) : Served × State :=
  if r.row.group then
    (.done .ok, match groupOf r.adr with
      | some c => s.shadowWrite c r.row r.adr v
      | none => s)
  else if r.row.act = .commit then
    (.done .ok, match groupOf r.adr with
      | some c => s.commitWrite c v
      | none => s)
  else if s.tableHeld who r then (.later, s.holdTable who r (some (BitVec.ofNat 64 v)))
  else
    match regUnitOf a with
    | some (.block, _, _) =>
      if r.row.act = .blkDoorbell then servedBy (s.ringBlk who ring v a) else (.done .ok, s.blockWrite who r v)
    | some (.tile, _, _) =>
      if r.row.act = .tilDoorbell then servedBy (s.ringTil who ring r.unit v)
      else (.done .ok, if h : r.unit < 12 then s.tileWrite who ⟨r.unit, h⟩ r v else s)
    | some (.reel, _, _) => s.reelWrite who r v
    | some (.relay, _, _) =>
      (.done .ok, if r.row.act = .rlyPctl then s.pctlWrite r.i v else s.plainWrite r v)
    | some (.debug, _, _) => s.debugWrite who r v
    | none => (.done .err, s)

/-- The engine that a register's ring rule stops with privilege, before its request goes out (R301). -/
def barredWriter (who : Initiator) (ring a : Nat) : Option Nat :=
  match regRef a with
  | some r =>
    if r.view && !r.row.group then none
    else match grant r.row.perm who ring r.unit r.i with
      | .priv g => some g
      | _ => none
  | none => none

/-- A write of `n` bytes in register space by an initiator at a ring. -/
def State.regWrite (s : State) (who : Initiator) (ring a n : Nat) (v : DWord) : Served × State :=
  match barredWriter who ring a with
  | some g => (.priv g, s)
  | none => match s.targetCode who a true, regRef a with
  | .ok, some r =>
    if !r.row.fits n then (.done .err, s)
    else if r.view && !r.row.group then (.done .ok, s)
    else match grant r.row.perm who ring r.unit r.i with
      | .ok => (s.served a).regEffect who ring a r (v.toNat % 2 ^ (8 * n))
      | .ignore => (.done .ok, s)
      | .err => (.done .err, s)
      | .priv g => (.priv g, s)
  | .ok, none => (.done .err, s)
  | c, _ => (.done c, s)

/-! ### The commands -/

/-- A read whose register clears counts. -/
def State.countsRead (s : State) (who : Initiator) (a m : Nat) : State :=
  s.readCommand who a (fun s => s.reg a) (fun s => s.clearMask a m)

/-- SKIPS_READ. -/
def execSkipsRead (who : Initiator) (t : Tile) (k : Fin 16) (s : State) : Out :=
  .next (s.countsRead who (Adr.ANG_CMP_STAT t.val k.val) 0xFFFF0000)

/-- PWCNT_READ. -/
def execPwcntRead (who : Initiator) (t : Tile) (s : State) : Out :=
  .next (s.countsRead who (Adr.ANG_PWCNT t.val) 0xFFFFFFFF)

/-- EXSTAT_READ. -/
def execExstatRead (who : Initiator) (n : Reel) (s : State) : Out :=
  .next (s.countsRead who (Adr.REEL_EXSTAT n.val) 0xFFFF00)

/-- REEL_CNT_READ. -/
def execReelCntRead (who : Initiator) (n : Reel) (s : State) : Out :=
  .next (s.countsRead who (Adr.REEL_CNT n.val) 0xFFFFFFFF)

/-- EXDROP_READ. -/
def execExdropRead (who : Initiator) (n : Reel) (s : State) : Out :=
  .next (s.countsRead who (Adr.REEL_EXDROP n.val) 0xFFFF)

/-- MEMCNT_READ. -/
def execMemcntRead (who : Initiator) (t : Tile) (s : State) : Out :=
  .next (s.countsRead who (Adr.TIL_MEMCNT t.val) 0xFFFFFFFF)

/-- LIBCNT_READ. -/
def execLibcntRead (who : Initiator) (s : State) : Out := .next (s.countsRead who Adr.BLK_LIBCNT 0xFFFFFFFF)

/-- UC_CNT_READ. -/
def execUcCntRead (who : Initiator) (t : Tile) (s : State) : Out :=
  .next (s.countsRead who (Adr.UC_CNT t.val) 0xFFFFFFFF)

/-- RDSTAT_READ. -/
def execRdstatRead (who : Initiator) (s : State) : Out := .next (s.countsRead who Adr.RLY_RDSTAT 0xFFFF0000)

/-- RLY_CNT_READ. -/
def execRlyCntRead (who : Initiator) (p : Port) (s : State) : Out :=
  .next (s.countsRead who (Adr.RLY_CNT p.val) 0xFFFFFFFF)

/-- FLT_CNT_READ. -/
def execFltCntRead (who : Initiator) (s : State) : Out := .next (s.countsRead who Adr.FLT_CNT 0xFFFFFFFF)

/-- KCALL_READ. -/
def execKcallRead (who : Initiator) (t : Tile) (s : State) : Out :=
  .next (s.countsRead who (Adr.TIL_KCALL t.val) 0xFFFF0000)

/-- MMSTAT_READ. -/
def execMmstatRead (who : Initiator) (s : State) : Out :=
  .next (s.readCommand who Adr.BLK_MMSTAT (fun s => s.mmStat) (fun s => s.clearMask Adr.BLK_MMSTAT 0xFF00))

/-- TPTR_READ. -/
def execTptrRead (who : Initiator) (t : Tile) (s : State) : Out :=
  .next (s.countsRead who (Adr.DBG_TPTR t.val) 0xFFFF0000)

/-- TIL_VBASE_WRITE. -/
def execTilVbaseWrite (who : Initiator) (t : Tile) (v : Word) (s : State) : Out :=
  .next (s.commandOk who .r0 t.val (Adr.TIL_VBASE t.val) (fun s => s.vbaseWrite t.val v.toNat))

/-- REGISTER_WRITE: a write of `2 ^ size` bytes at an address of register space. -/
def execRegisterWrite (who : Initiator) (a : Word) (size : Fin 4) (v : DWord) (s : State) : Out :=
  let r := if inRegSpace a.toNat then s.regWrite who (s.ringOf who) a.toNat (2 ^ size.val) v else (.done .err, s)
  .next (match r.1 with
    | .done c => r.2.reply who c a.toNat
    | .later => r.2
    | .priv g => if r.2.canIssue g then r.2.raise g { code := excPrivilege, faddr := a } else r.2)

end Sys2Proof.Machine
end

