-- ==== Sys2Proof/Machine/Boot.lean ====
section
/-!
DEFINITION. The boot sequencer from the loaded image to the released keepers: repairs (R474 to R476), the AON and REGS
sections (R617, R620), context 0 (R621), steps 7, 9 and 10 (R622 to R624), and the tile restart (R630).
-/

namespace Sys2Proof.Machine

/-! ### Repairs (R475) -/

/-- At a cold power-up a tile starts from the map logical L to physical L, bank 31 free. -/
def State.identityMap (s : State) (t : Nat) : State := (List.range 31).foldl (fun s l => s.setRemap t l l) s

/-- Whether a byte was written by a MEM section of this attempt. -/
def State.bootWrote (s : State) (a : Nat) : Bool := s.boot.wrote.any (fun r => r.1 ≤ a && a < r.1 + r.2)

/-- Eight bytes of a repaired library row: those of a MEM section, and what the spare holds beside them (free,
log 37). -/
def State.spareWord (s : State) (a : Nat) : State :=
  if (List.range 8).all (fun i => s.bootWrote (a + i)) then s
  else
    let r := s.free
    let bytes := (leBytes 8 r.1.toNat).zipIdx.map (fun x => if s.bootWrote (a + x.2) then memRd s.mem (a + x.2) else x.1)
    { r.2 with mem := memWrite r.2.mem a bytes }

/-- A library row that moves to a spare at a start that keeps library contents: the bytes of MEM sections are read again
from the source (R623). Elsewhere the boot march has left zero on both sides. -/
def State.rowContents (s : State) (u a : Nat) : State :=
  if u < 12 ∨ s.startKind = 0 then s
  else ((List.range 8).foldl (fun s i => s.spareWord (a + 8 * i)) s).clearMarks a

/-- A row of a scratchpad or library bank takes the lowest free spare; false when there is none. -/
def State.repairRow (s : State) (u x row : Nat) : Bool × State :=
  match s.freeSpare u x with
  | none => (false, s)
  | some i => (true, (s.takeSpare u x row i).rowContents u (rowAdr u x row))

/-- A logical bank moves to a physical bank that is free. -/
def State.repairBank (s : State) (t l p : Nat) : Bool × State :=
  if l < 31 ∧ (List.range 31).all (fun k => s.remap t k != p) then (true, s.setRemap t l p) else (false, s)

/-- An entry of the repair record (R474): ignored entries of KIND 1 to 3 set REPIGN. An entry whose tile or row does not
exist names no spare (DEDUCED, log 38). -/
def State.repairEntry (s : State) (w : Nat) : State :=
  let unit := getBits w 24 4
  let r : Bool × State := match getBits w 28 4 with
    | 1 => if unit < 12 ∧ getBits w 0 13 < 1024 then s.repairRow unit (getBits w 20 4) (getBits w 0 13) else (false, s)
    | 2 => if unit < 12 then s.repairBank unit (getBits w 5 5) (getBits w 0 5) else (false, s)
    | 3 => s.repairRow libUnit unit (getBits w 0 13)
    | _ => (true, s)
  if r.1 then r.2 else r.2.put Adr.BOOT_STAT Bits.BOOT_STAT_REPIGN 1

/-- The physical row that an entry of a unit's fail list names (R480, R481). -/
def State.failRow (s : State) (u i : Nat) : Option (Nat × Nat) :=
  let v := (s.reg (unitFail u i)).toNat
  if !getBit v 31 then none
  else if u < 12 ∧ getBit v 30 then some (16 + getBits v 21 5, getBits v 0 12)
  else some (getBits v 26 4, getBits v 0 14)

/-- A unit's fail list. -/
def State.failRows (s : State) (u : Nat) : List (Nat × Nat) := (List.range 16).filterMap (s.failRow u)

/-- A failure that the repair state does not cover is repaired, REPNEW set; one that no spare covers has the outcome of
R476. -/
def State.repairFail (s : State) (u : Nat) (all : List (Nat × Nat)) (f : Nat × Nat) : State :=
  match s.failAdr u f with
  | none => s
  | some a =>
    if s.noSpare u f all then s.exhausted u f a
    else
      let r : Bool × State :=
        if u < 12 ∧ 16 ≤ f.1 then
          (match s.freeBank u with
            | some p => s.repairBank u ((a % 0x1000000 - 0x800000) / 8 % 31) p
            | none => (false, s))
        else
          s.repairRow u f.1 (if u < 12 then a % 0x10000 / 64 else (a - 0x20000000) / 1024)
      if r.1 then r.2.put (unitStat u) Bits.TIL_MEMSTAT_REPNEW 1 else r.2

/-- The units of step 7: the tiles in service, and the library. -/
def State.bootUnits (s : State) : List Nat := (List.range 13).filter (fun u => 12 ≤ u || !s.tileFenced u)

/-- The 32-bit words of bytes. -/
def wordsOf (l : List Byte) : List Nat := (List.range (l.length / 4)).map (fun i => leVal ((l.drop (4 * i)).take 4))

/-- The held bytes of the sections of a type, in table order. -/
def State.heldOf (s : State) (type : Nat) : List (List Byte) :=
  (s.boot.held.filter (fun p => (sectionAt s.boot.header p.1).type == type)).map (·.2)

/-- The repair state of step 7. -/
def State.bootRepair (s : State) : State :=
  let s :=
    if s.startKind ≠ 0 then s
    else
      let s := (s.bootUnits.filter (· < 12)).foldl State.identityMap s
      ((s.heldOf 3).flatMap wordsOf).foldl State.repairEntry s
  if s.startKind = 2 then s
  else s.bootUnits.foldl (fun s u =>
    let fs := s.failRows u
    fs.foldl (fun s f => s.repairFail u fs f) s) s

/-! ### AON and REGS (R617, R620) -/

/-- The AON section. -/
def State.bootAon (s : State) (l : List Byte) : State :=
  (s.setReg Adr.MRG_RUNTIME (BitVec.ofNat 64 (leVal (l.take 4)))).put Adr.MRG_LOGCTL Bits.MRG_LOGCTL_WP
    (leVal ((l.drop 4).take 2))

/-- An entry of a REGS section: address, width in bytes, value. -/
structure RegsEntry where
  adr : Nat
  size : Nat
  val : DWord
  deriving DecidableEq, Repr

/-- The entries of a REGS section. -/
def regsEntries (l : List Byte) : List RegsEntry :=
  (List.range (l.length / 16)).map (fun i =>
    let e := (l.drop (16 * i)).take 16
    let wide := getBit (leVal ((e.drop 4).take 4)) 0
    { adr := leVal (e.take 4), size := if wide then 8 else 4, val := BitVec.ofNat 64 (leVal (e.drop 8)) })

/-- Whether an address is one that no REGS entry may name. -/
def bootForbidden (a : Nat) : Bool :=
  a == Adr.BLK_MODE || a == Adr.BLK_BOOTCTL || bootReg a || a == Adr.BLK_DOORBELL || a == Adr.FLT_TEST ||
    a == Adr.FLT_FENCE || a == Adr.MRG_STBY || (match regTile a with
      | some t => a == Adr.TIL_DOORBELL t || a == Adr.MRG_PWR t || a == Adr.CAL_CMD t || a == Adr.CAL_READY t ||
          a == Adr.CAL_PARK t
      | none => false)

/-- Whether a written GO has left its group rejected (R43). -/
def State.goRejected (s : State) (x : RegsEntry) : Bool :=
  match regRef x.adr with
  | some r => r.row.act == .commit && !r.view && getBit x.val.toNat 0 && !getBit x.val.toNat 2 &&
      s.get r.adr cResult == 2
  | none => false

/-- One entry is written: the reason for which it fails, and the state. `judge`: a GO that is rejected fails. -/
def State.regsWrite (s : State) (judge : Bool) (x : RegsEntry) : Option Nat × State :=
  if bootForbidden x.adr ∨ !inRegSpace x.adr then (some 11, s)
  else match s.regWrite .boot 0 x.adr x.size x.val with
    | (.done .err, s') | (.done .notReady, s') | (.priv _, s') => (some 11, s')
    | (_, s') => (if judge && s'.goRejected x then some 13 else none, s')

/-- Entries in order, up to the first that fails. -/
def State.regsRun (s : State) (judge : Bool) : List RegsEntry → Option Nat × State
  | [] => (none, s)
  | x :: r =>
    match s.regsWrite judge x with
    | (some n, s') => (some n, s')
    | (none, s') => s'.regsRun judge r

/-- Whether an entry addresses a fenced tile (R626). -/
def State.skipsEntry (s : State) (x : RegsEntry) : Bool :=
  match regTile x.adr with
  | some t => s.tileFenced t
  | none => false

/-! ### Stores and margins -/

/-- UC_VERSION and UC_PATCH of a tile, from the header. -/
def State.ucFromHeader (s : State) (h : List Byte) (t : Nat) : State :=
  (s.setReg (Adr.UC_VERSION t) (BitVec.ofNat 64 (hdr h 0x0C 4))).setReg (Adr.UC_PATCH t) (BitVec.ofNat 64 (hdr h 0x10 4))

/-- A tile's quick check goes into the age log and its plan is made; every change reaches its boundary (R623). -/
def State.bootMargin (s : State) (t : Tile) : State :=
  if s.tileFenced t.val then s
  else
    let s := match (s.power t.val).check with
      | some (full, d) => s.applyCheck t full d
      | none => s
    s.setPower t.val { s.power t.val with rail := s.vt t.val, fclk := s.fn t.val }

/-- Step 8: the hub runs a pass on every reel with EN 1 that runs none (R209, R622). -/
def State.bootPasses (s : State) : State :=
  (List.range 8).foldl (fun s n => if s.reelEnabled n then s.startPass n else s) s

/-- GROUP_COMMIT_STEP: step 7 (R623). -/
def State.groupCommitStep (s : State) : State :=
  if !s.booting ∨ s.bootState ≠ bsCommit ∨ !s.quickDone then s
  else
    let h := s.boot.header
    let s := (s.heldOf 5).foldl State.bootAon s.bootRepair
    match s.regsRun true (((s.heldOf 1).flatMap regsEntries).filter (fun x => !s.skipsEntry x)) with
    | (some n, s') => s'.bootFail n
    | (none, s') =>
      let s' := (s'.bootUnits.filter (· < 12)).foldl (fun s t => (s.loadStores t).ucFromHeader h t) s'
      ((allTiles.foldl State.bootMargin s').setBoot bsReels).bootPasses.bootAdvance

/-! ### Context 0 (R621, R624) -/

/-- The keeper entry of a tile. -/
def keeperWord (l : List Byte) (t i : Nat) : Word := BitVec.ofNat 32 (leVal ((l.drop (16 * t + 4 * i)).take 4))

/-- Context 0 of a tile is set up from the KEEPER section, and RUN lets E0 take it. -/
def State.setKeeper (s : State) (l : List Byte) (t : Nat) : State :=
  let tsbp := keeperWord l t 1
  let dl := keeperWord l t 2
  let rl := keeperWord l t 3
  let s := match framePlace (16 * t) (pswGet tsbp Bits.TSBP_FRAME * 64) with
    | some x =>
      let s := s.store false x (cellBytes
        [keeperWord l t 0, 0x80000000, BitVec.ofNat 32 (limBase dl), BitVec.ofNat 32 (limBase rl)])
      s.store false (x + 0x28) (cellBytes [0])
    | none => s
  let s := s.setReg (Adr.CAL_CTX_TSBP t 0) (tsbp.setWidth 64)
  let s := s.setReg (Adr.CAL_CTX_DSLIM t 0) (dl.setWidth 64)
  let s := s.setReg (Adr.CAL_CTX_RSLIM t 0) (rl.setWidth 64)
  (s.makeReady t 0 false).setBit (Adr.CAL_CTL t) 0

/-- RELAY_WAIT_END: step 9 ends, and step 10 releases the keepers. -/
def State.relayWaitEnd (s : State) : State :=
  if !s.booting ∨ s.bootState ≠ bsRelays then s
  else
    let l := (s.heldOf 4).headD []
    ((s.keepers.foldl (fun s t => s.setKeeper l t) s).setBoot bsKeepers).keepersReady

/-! ### Tile restart (R630) -/

/-- Whether a section holds something of a tile that a tile restart loads. -/
def Section.forTile (x : Section) (t : Nat) : Bool :=
  x.flags % 2 == 0 && (x.type == 1 || x.type == 4 || (x.type == 2 && memTile x.dest == some t))

/-- A tile's MEM sections are written, its REGS entries follow, and context 0 is set up; the reason of a failure. -/
def State.restartLoad (s : State) (h : List Byte) (data : List (List Byte)) (t : Nat) : Option Nat × State :=
  let parts := ((sections h).zip data).filter (fun p => p.1.forTile t)
  let bytes (p : Section × List Byte) : List Byte := p.2.take p.1.len
  let s := (parts.filter (fun p => p.1.type == 2)).foldl (fun s p => s.bootStore p.1.dest (bytes p)) s
  if parts.any (fun p => sha256 (bytes p) != p.1.digest) then (some 10, s)
  else
    let mine := (((parts.filter (fun p => p.1.type == 1)).map bytes).flatMap regsEntries).filter
      (fun x => regTile x.adr == some t)
    match s.regsRun false mine with
    | (some n, s') => (some n, s')
    | (none, s') =>
      let s' := s'.ucFromHeader h t
      (none, if getBit (hdr h 0x20 2) t then
          s'.setKeeper (((parts.filter (fun p => p.1.type == 4)).map bytes).headD []) t else s')

/-- A tile restart that is served leaves the queue. -/
def State.restartServed (s : State) (t : Nat) : State :=
  { s.put Adr.BOOT_TRSTAT ⟨t, 1⟩ 0 with boot := { s.boot with restarts := s.boot.restarts.filter (· != t) } }

/-- A failed tile restart: FAIL, and the tile goes to Off. -/
def State.restartFail (s : State) (t : Tile) (reason : Nat) : State :=
  (((s.put Adr.BOOT_STAT Bits.BOOT_STAT_REASON reason).setBit Adr.BOOT_TRSTAT (12 + t.val)).goOff t)

/-- TILE_RESTART: the restart at the head of the queue. A tile that has been fenced or switched off since is passed over
(DESIGN CHOICE, log 39). -/
def State.tileRestart (s : State) (t : Tile) (h : List Byte) (data : List (List Byte)) : State :=
  if s.mode = modeBoot ∨ s.fatal ∨ s.poreset ∨ s.boot.restarts.head? ≠ some t.val then s
  else
    let s := s.restartServed t.val
    if s.tileFenced t.val ∨ s.sleep t.val = 3 then s
    else match headerReason h s.halfFlash with
      | some r => s.restartFail t r
      | none =>
        if hdr h 0x14 4 ≠ (s.reg Adr.BOOT_IMGID).toNat then s.restartFail t 15
        else match s.restartLoad h data t.val with
          | (some r, s') => s'.restartFail t r
          | (none, s') => s'

/-! ### The commands -/

/-- GROUP_COMMIT_STEP. -/
def execGroupCommitStep (s : State) : Out := .next s.groupCommitStep

/-- RELAY_WAIT_END. -/
def execRelayWaitEnd (s : State) : Out := .next s.relayWaitEnd

/-- TILE_RESTART. -/
def execTileRestart (t : Tile) (header : List Byte) (sections : List (List Byte)) (s : State) : Out :=
  .next (s.tileRestart t header sections)

end Sys2Proof.Machine
end

