-- ==== Sys2Proof/Machine/LoadStore.lean ====
section
/-!
DEFINITION. Loads, stores, atomics and locked sequences (R298 to R316), the issue side of the store buffer and of loads
that complete out of order (R320 to R334).
-/

namespace Sys2Proof.Machine

/-! ### The checks of an access (R300, R301, R306) -/

/-- Whether an access raises misaligned (R300). -/
def misaligned (a n : Nat) : Bool :=
  if a < 0x10000 then a % n != 0 && 0x10000 < a + n
  else if inRegSpace a then false
  else a % n != 0

/-- Whether an access splits: in the own scratchpad through its local addresses, across a 64-bit word (R302). -/
def crosses (a n : Nat) : Bool := a < 0x10000 && 8 < a % 8 + n

/-- Misaligned and protection, with the address of the half that failed (R301, R303). -/
def Engine.accessFault (e : Engine) (a n need : Nat) : Option Exc :=
  if misaligned a n then some { code := excMisaligned, faddr := BitVec.ofNat 32 a }
  else if allowed e.effPr e.effRing a n need then none
  else
    let k := if crosses a n && allowed e.effPr e.effRing a (8 - a % 8) need then 8 - a % 8 else 0
    some { code := excProtection, faddr := BitVec.ofNat 32 (a + k) }

/-- A bus error of a data access. -/
def busAt (a : Nat) : Exc := { code := excBus, faddr := BitVec.ofNat 32 a }

/-- Whether a register bars stores from a ring: privilege, raised before the store (R301). -/
def regBars (g ring a : Nat) : Bool :=
  match regRef a with
  | some r => !(r.view && !r.row.group) && grantEngine r.row.perm g ring r.unit r.i == .priv g
  | none => false

/-- The canonical address of a data access (R331). -/
def Place.canon : Place → Option Nat
  | .own x | .tile x | .fabric x | .reg x | .ext x | .remote x => some x
  | .unmapped => none

/-- A tile whose memory an access reaches wakes (R583). -/
def State.wakeMem (s : State) (x : Nat) : State :=
  match memTile x with
  | some t => s.wakeNow t
  | none => s

/-! ### The store buffer (R331 to R334) -/

/-- What a load finds in the store buffer. -/
inductive SbHit where
  | none
  /-- the youngest overlapping entry holds every byte -/
  | hit (bytes : List Byte)
  | overlap

/-- The entries that a load of `n` bytes at a canonical address meets (R333, R334). -/
def sbLookup (sb : List SbEntry) (x n : Nat) : SbHit :=
  match (sb.filter (fun y => overlaps y.adr y.bytes.length x n)).getLast? with
  | none => .none
  | some y =>
    if y.adr ≤ x ∧ x + n ≤ y.adr + y.bytes.length then .hit ((y.bytes.drop (x - y.adr)).take n) else .overlap

/-- The entries of a store: one, or two halves as a pair (R303, R331). -/
def sbEntries (a x : Nat) (bytes : List Byte) (tag ctx ring pc : Nat) : List SbEntry :=
  let one (k : Nat) (b : List Byte) (pair : Bool) : SbEntry :=
    { adr := x + k, bytes := b, faddr := BitVec.ofNat 32 (a + k), tag := tag, pair := pair, ctx := ctx, ring := ring,
      pc := pc }
  if crosses a bytes.length then [one 0 (bytes.take (8 - a % 8)) true, one (8 - a % 8) (bytes.drop (8 - a % 8)) false]
  else [one 0 bytes false]

/-! ### Data triggers (R652, R654) -/

/-- An access that is about to be performed meets the data-type triggers: a WATCH faults, anything else lets it go. -/
def State.dataWatched (s : State) (g : Nat) (x : Access) (go : State → State) : State :=
  if s.get (Adr.DBG_TCTL (tileOf g)) Bits.DBG_TCTL_EN = 0 then go s
  else
    let f := s.triggers g (s.eng g).arch.pc.toNat (some x)
    if f.watch.isSome then
      if (s.eng g).flights ≠ [] then s
      else f.st.raise g { code := excWatch, faddr := BitVec.ofNat 32 x.adr }
    else if f.dbgReq.isSome then go (f.st.requestDebug g 2)
    else go f.st

/-! ### Loads -/

/-- A load of `len` bytes of code has its cells: ready at once, or waiting for an operation that enters the completion
tracker. -/
def State.loadCellsIn (s : State) (g len : Nat) (u : StkUse) (kind : Option FlightKind) (cells : List Word) : State :=
  let e := s.eng g
  match kind with
  | none => s.retire g { e.gone with arch := { e.arch with bank := e.arch.bank.apply u none cells [] } } len
  | some k =>
    s.retire g
      { e.gone with
        arch := { e.arch with bank := e.arch.bank.apply u (some e.nextTag) cells [] },
        flights := e.flights ++ [{ tag := e.nextTag, kind := k, before := e.arch, slot := e.slot }],
        nextTag := e.nextTag + 1 }
      len

/-- Whether a flight is a load. -/
def Flight.isLoad (f : Flight) : Bool :=
  match f.kind with
  | .mul | .div => false
  | _ => true

/-- Room for a load that completes out of order: the completion tracker, and the loads beyond EX2 (R321). -/
def State.loadRoom (s : State) (g : Nat) (go : State → State) : State :=
  let e := s.eng g
  if ctSize g ≤ e.flights.length then s.setEng g (e.countCycle pcCtFull)
  else if maxLoads g ≤ e.flights.countP Flight.isLoad then s
  else go s

/-- How a load of a memory is read: its data, or the address of the part that failed. -/
def State.memLoad (s : State) (a x n : Nat) : (Nat ⊕ List Byte) × State :=
  if s.memErr x then (.inl a, s)
  else
    let r := (s.wakeMem x).load x n
    match r.bad with
    | some b => (.inl (a + (b - x)), r.st)
    | none => (.inr r.bytes, r.st)

/-- A load of a memory (R299, R301, R321): a failing one waits until it is the oldest, and raises bus error. -/
def State.loadMem (s : State) (g len : Nat) (u : StkUse) (kind : Option FlightKind) (a x n : Nat) (sx : Bool) : State :=
  match s.memLoad a x n with
  | (.inl b, s') => if (s.eng g).flights ≠ [] then s else s'.raise g (busAt b)
  | (.inr bytes, _) =>
    let cells := loadCells sx bytes
    let acc : Access := { adr := a, size := n, isLoad := true, isStore := false, value := cells.getLastD 0 }
    s.dataWatched g acc (fun s => ((s.memLoad a x n).2).loadCellsIn g len u kind cells)

/-- A load that an entry of the store buffer serves (R333). -/
def State.loadForward (s : State) (g len : Nat) (u : StkUse) (a n : Nat) (sx : Bool) (bytes : List Byte) : State :=
  let cells := loadCells sx bytes
  let acc : Access := { adr := a, size := n, isLoad := true, isStore := false, value := cells.getLastD 0 }
  s.dataWatched g acc (fun s => (s.modEng g (fun e => e.count pcSbFwd)).loadCellsIn g len u none cells)

/-- A load from register space (R323): alone and behind every answered store; one of a table that a figure holds waits
for it (R150). -/
def State.loadReg (s : State) (g : Eng) (len : Nat) (u : StkUse) (a n : Nat) (sx : Bool) : State :=
  if !(s.eng g.val).drained then s
  else
    let held := match regRef a with
      | some r => if !r.view && r.row.fits n && s.targetCode (.engine g) a false == .ok && s.tableHeld (.engine g) r then
          some r.unit else none
      | none => none
    match held with
    | some t => s.modEng g.val (fun e => { e with hold := .figTable t false })
    | none =>
      match s.regRead (.engine g) a n with
      | (.done .ok, v, _) =>
        let cells := loadCells sx (leBytes n v.toNat)
        let acc : Access := { adr := a, size := n, isLoad := true, isStore := false, value := cells.getLastD 0 }
        s.dataWatched g.val acc (fun s => ((s.regRead (.engine g) a n).2.2).loadCellsIn g.val len u none cells)
      | _ => s.raise g.val (busAt a)

/-- A load from the external or the remote window: its request goes out, and its answer comes as its own event. -/
def State.loadFar (s : State) (g : Eng) (len : Nat) (u : StkUse) (remote : Bool) (a n : Nat) (sx : Bool) : State :=
  s.loadRoom g.val (fun s =>
    let acc : Access := { adr := a, size := n, isLoad := true, isStore := false, value := 0, phase := 1 }
    s.dataWatched g.val acc (fun s =>
      let tag := (s.eng g.val).nextTag
      let cells : List Word := if n = 8 then [0, 0] else [0]
      let s' := s.loadCellsIn g.val len u (some (if remote then .remote a n sx else .ext a n sx)) cells
      if remote then s'.remoteLoad (.engine g) (.load g.val tag) a n
      else s'.mmAsk { who := .load g.val tag, write := false, adr := a, len := n }))

/-- A load of `n` bytes (R298, R301): stack, alignment and protection, the store buffer, the target. -/
def State.loadOp (s : State) (g : Eng) (len : Nat) (u : StkUse) (n : Nat) (sx : Bool) (adr : List Word → Word) : State :=
  let e := s.eng g.val
  match e.arch.bank.check u with
  | .fault x => s.raise g.val x
  | .hold => s.waitFor g.val u
  | .go d _ =>
    let a := (adr d).toNat
    match e.accessFault a n needR, engPlace g.val a with
    | some x, _ => s.raise g.val x
    | none, .unmapped => s.raise g.val (busAt a)
    | none, .reg _ => s.loadReg g len u a n sx
    | none, p =>
      let x := p.canon.getD 0
      match sbLookup e.sb x n with
      | .overlap => s.setEng g.val (e.countCycle pcSbOverlap)
      | .hit bytes => s.loadForward g.val len u a n sx bytes
      | .none =>
        match p with
        | .own _ => s.loadMem g.val len u none a x n sx
        | .tile _ => s.loadRoom g.val (fun s => s.loadMem g.val len u (some .tile) a x n sx)
        | .fabric _ => s.loadRoom g.val (fun s => s.loadMem g.val len u (some .fabric) a x n sx)
        | .ext _ => s.loadFar g len u false a n sx
        | _ => s.loadFar g len u true a n sx

/-! ### Stores -/

/-- A store to CAL_PARK (R364): it waits as a load of register space does, its ERR is precise, and at OK the engine holds
until its PARK event. -/
def State.storePark (s : State) (g : Eng) (len : Nat) (u : StkUse) (a n : Nat) (v : Nat) (acc : Access) : State :=
  if !(s.eng g.val).drained then s
  else
    let ring := (s.eng g.val).effRing
    match (s.regWrite (.engine g) ring a n (BitVec.ofNat 64 v)).1 with
    | .done .ok =>
      s.dataWatched g.val acc (fun s =>
        ((s.regWrite (.engine g) ring a n (BitVec.ofNat 64 v)).2).loadCellsIn g.val len u none [])
    | _ => s.raise g.val (busAt a)

/-- Whether an address is a CAL_PARK register. -/
def isPark (a : Nat) : Bool :=
  match regRef a with
  | some r => r.row.act == .calPark && !r.view
  | none => false

/-- A store takes its entries of the store buffer, or waits for room (R299, R331). -/
def State.storeBuffered (s : State) (g len : Nat) (u : StkUse) (a x : Nat) (bytes : List Byte) (acc : Access) : State :=
  let e := s.eng g
  let k := if crosses a bytes.length then 2 else 1
  if sbSize g < e.sb.length + k then s.setEng g (e.countCycle pcSbFull)
  else
    s.dataWatched g acc (fun s =>
      (s.modEng g (fun e =>
        { e with sb := e.sb ++ sbEntries a x bytes e.nextTag (s.ctxOf g) e.effRing e.arch.remotePc.toNat })).loadCellsIn g len u none [])

/-- A store of `n` bytes of a value (R298, R301). -/
def State.storeOp (s : State) (g : Eng) (len : Nat) (u : StkUse) (n : Nat) (adr : List Word → Word) (val : List Word → Nat) :
    State :=
  let e := s.eng g.val
  match e.arch.bank.check u with
  | .fault x => s.raise g.val x
  | .hold => s.waitFor g.val u
  | .go d _ =>
    let a := (adr d).toNat
    let v := val d
    let acc : Access := { adr := a, size := n, isLoad := false, isStore := true, value := BitVec.ofNat 32 v }
    match e.accessFault a n needW, engPlace g.val a with
    | some x, _ => s.raise g.val x
    | none, .unmapped => s.raise g.val (busAt a)
    | none, p =>
      if regBars g.val e.effRing a then s.raise g.val { code := excPrivilege, faddr := BitVec.ofNat 32 a }
      else if isPark a then s.storePark g len u a n v acc
      else s.storeBuffered g.val len u a (p.canon.getD 0) (leBytes n v) acc

/-! ### Atomics (R309, R310) -/

/-- Where an atomic works: tile memory of any tile, and library memory, as a global address (R310). -/
def atomicPlace (g a : Nat) : Option Nat :=
  match engPlace g a with
  | .tile x | .fabric x => if inLibrary x || 0x800000 ≤ x % 0x1000000 then some x else none
  | _ => none

/-- The alignment and protection of an atomic, and its place (R300, R301, R310). -/
def Engine.atomicFault (e : Engine) (a n need : Nat) : Option Exc :=
  if a % n ≠ 0 then some { code := excMisaligned, faddr := BitVec.ofNat 32 a }
  else if allowed e.effPr e.effRing a n need then none
  else some { code := excProtection, faddr := BitVec.ofNat 32 a }

/-- The earlier stores of an engine have been performed, and nothing older is in flight (R310). -/
def Engine.quiet (e : Engine) : Bool := e.flights == [] && e.sb == [] && e.waitResp == []

/-- What an atomic does at its memory's controller: the failing address; or its cells, the value that data comparators
see, whether it accessed, and the state. -/
structure Atom where
  bad : Option Nat := none
  cells : List Word := []
  loaded : Word := 0
  wrote : Option Word := none
  performed : Bool := true
  st : State

/-- Which cell a data comparator sees of an access that loads one and writes another: open (log 40). -/
def State.atomCell (s : State) (t : Atom) : Word × State :=
  match t.wrote with
  | none => (t.loaded, s)
  | some w =>
    if w = t.loaded then (w, s)
    else
      let r := s.free
      (if bitOf r.1 0 then w else t.loaded, r.2)

/-- An atomic instruction: the checks in order, the wait for earlier stores, and the operation `act` at a global address. -/
def State.atomicOp (s : State) (g : Nat) (u : StkUse) (n need : Nat) (isLoad isStore : Bool)
    (act : State → List Word → Nat → Atom) : State :=
  let e := s.eng g
  match e.arch.bank.check u with
  | .fault x => s.raise g x
  | .hold => s.waitFor g u
  | .go d _ =>
    let a := (d.headD 0).toNat
    match e.atomicFault a n need, atomicPlace g a with
    | some x, _ => s.raise g x
    | none, none => s.raise g (busAt a)
    | none, some x =>
      if !e.quiet then s
      else if s.memErr x then s.raise g (busAt a)
      else
        let t := act s d x
        match t.bad with
        | some b => t.st.raise g (busAt (a + (b - x)))
        | none =>
          if s.get (Adr.DBG_TCTL (tileOf g)) Bits.DBG_TCTL_EN = 0 then t.st.loadCellsIn g 1 u none t.cells
          else
            let c := s.atomCell t
            let acc : Access := { adr := a, size := n, isLoad := isLoad, isStore := isStore, value := c.1,
                                  performed := t.performed }
            c.2.dataWatched g acc (fun s =>
              let t := act s d x
              t.st.loadCellsIn g 1 u none t.cells)

/-- A locked or atomic read of `n` bytes. -/
def State.atomRead (s : State) (x n : Nat) : Atom :=
  let r := (s.wakeMem x).load x n
  let cells := loadCells false r.bytes
  { bad := r.bad, cells := cells, loaded := cells.getLastD 0, st := r.st }

/-- Whether an engine's stores pass the STATE lock: ring 0 (R181). -/
def State.unlocks (s : State) (g : Nat) : Bool := (s.eng g).effRing == 0

/-- AADD and ASWAP: the old cell is read, and `f old v` written, in one operation, which decodes the word once (R453). -/
def State.swapAct (g : Nat) (f : Word → Word → Word) (s : State) (d : List Word) (x : Nat) : Atom :=
  let r := s.atomRead x 4
  if s.writeErr x 4 then { bad := some x, st := s }
  else if r.bad.isSome then r
  else
    let w := f r.loaded (d.getD 1 0)
    { r with wrote := some w, st := (r.st.writeBack (codeBase x)).store (s.unlocks g) x (leBytes 4 w.toNat) }

/-- LINK and LINK64: the read sets the link (R313). -/
def State.linkAct (g n : Nat) (s : State) (_ : List Word) (x : Nat) : Atom :=
  let r := s.atomRead x n
  if r.bad.isSome then r else { r with st := r.st.modEng g (fun e => { e with link := some (x / 8 * 8) }) }

/-- CSTORE and CSTORE64: the write happens when the engine's link holds the granule; the link goes either way (R315). -/
def State.cstoreAct (g n : Nat) (val : List Word → Nat) (s : State) (d : List Word) (x : Nat) : Atom :=
  let v := val d
  let clear (s : State) : State := s.modEng g (fun e => { e with link := none })
  if (s.eng g).link = some (x / 8 * 8) then
    if s.writeErr x n then { bad := some x, st := s }
    else
      { cells := [flagCell true], loaded := BitVec.ofNat 32 v,
        st := clear (((s.wakeMem x).store (s.unlocks g) x (leBytes n v))) }
  else { cells := [flagCell false], loaded := BitVec.ofNat 32 v, performed := false, st := clear s }

/-! ### The instructions -/

/-- The address on top of the stack. -/
def adrTop (d : List Word) : Word := d.headD 0

/-- The value below the address: a cell, and a double cell lo hi. -/
def cellBelow (d : List Word) : Nat := (d.getD 1 0).toNat
def dcellBelow (d : List Word) : Nat := (dcell (d.getD 2 0) (d.getD 1 0)).toNat

/-- A load with its address on the stack. -/
def loadCmd (g : Eng) (s : State) (len n : Nat) (sx : Bool) (adr : Word → Word) : Out :=
  .next (s.issue g.val len false true (fun s =>
    s.loadOp g len { dIn := 1, dOut := if n = 8 then 2 else 1 } n sx (fun d => adr (adrTop d))))

/-- A store with its address on the stack. -/
def storeCmd (g : Eng) (s : State) (len n : Nat) (adr : Word → Word) : Out :=
  .next (s.issue g.val len false true (fun s =>
    s.storeOp g len { dIn := if n = 8 then 3 else 2 } n (fun d => adr (adrTop d)) (if n = 8 then dcellBelow else cellBelow)))

/-- LD8U. -/
def execLd8u (g : Eng) (s : State) : Out := loadCmd g s 1 1 false id

/-- LD8S. -/
def execLd8s (g : Eng) (s : State) : Out := loadCmd g s 1 1 true id

/-- LD16U. -/
def execLd16u (g : Eng) (s : State) : Out := loadCmd g s 1 2 false id

/-- LD16S. -/
def execLd16s (g : Eng) (s : State) : Out := loadCmd g s 1 2 true id

/-- LD32. -/
def execLd32 (g : Eng) (s : State) : Out := loadCmd g s 1 4 false id

/-- LD64. -/
def execLd64 (g : Eng) (s : State) : Out := loadCmd g s 1 8 false id

/-- ST8: v[7:0]. -/
def execSt8 (g : Eng) (s : State) : Out := storeCmd g s 1 1 id

/-- ST16: v[15:0]. -/
def execSt16 (g : Eng) (s : State) : Out := storeCmd g s 1 2 id

/-- ST32. -/
def execSt32 (g : Eng) (s : State) : Out := storeCmd g s 1 4 id

/-- ST64: lo at the address, hi above it. -/
def execSt64 (g : Eng) (s : State) : Out := storeCmd g s 1 8 id

/-- LD32D d: at a + 4·d. -/
def execLd32d (g : Eng) (d : BitVec 8) (s : State) : Out := loadCmd g s 2 4 false (fun a => dispAddr a d 4)

/-- ST32D d. -/
def execSt32d (g : Eng) (d : BitVec 8) (s : State) : Out := storeCmd g s 2 4 (fun a => dispAddr a d 4)

/-- LD32A w: at the address w. -/
def execLd32a (g : Eng) (w : BitVec 32) (s : State) : Out :=
  .next (s.issue g.val 5 false true (fun s => s.loadOp g 5 { dOut := 1 } 4 false (fun _ => w)))

/-- ST32A w. -/
def execSt32a (g : Eng) (w : BitVec 32) (s : State) : Out :=
  .next (s.issue g.val 5 false true (fun s =>
    s.storeOp g 5 { dIn := 1 } 4 (fun _ => w) (fun d => (d.headD 0).toNat)))

/-- LD64D d: at a + 8·d. -/
def execLd64d (g : Eng) (d : BitVec 8) (s : State) : Out := loadCmd g s 2 8 false (fun a => dispAddr a d 8)

/-- ST64D d. -/
def execSt64d (g : Eng) (d : BitVec 8) (s : State) : Out := storeCmd g s 2 8 (fun a => dispAddr a d 8)

/-- An atomic as a command. -/
def atomicCmd (g : Eng) (s : State) (u : StkUse) (n need : Nat) (isLoad isStore : Bool)
    (act : State → List Word → Nat → Atom) : Out :=
  .next (s.issue g.val 1 false true (fun s => s.atomicOp g.val u n need isLoad isStore act))

/-- AADD: memory := old + v; pushes old. -/
def execAadd (g : Eng) (s : State) : Out :=
  atomicCmd g s { dIn := 2, dOut := 1 } 4 (needR + needW) true true (State.swapAct g.val (fun old v => old + v))

/-- ASWAP: memory := v; pushes old. -/
def execAswap (g : Eng) (s : State) : Out :=
  atomicCmd g s { dIn := 2, dOut := 1 } 4 (needR + needW) true true (State.swapAct g.val (fun _ v => v))

/-- LINK. -/
def execLink (g : Eng) (s : State) : Out :=
  atomicCmd g s { dIn := 1, dOut := 1 } 4 (needR + needW) true false (State.linkAct g.val 4)

/-- LINK64. -/
def execLink64 (g : Eng) (s : State) : Out :=
  atomicCmd g s { dIn := 1, dOut := 2 } 8 (needR + needW) true false (State.linkAct g.val 8)

/-- CSTORE. -/
def execCstore (g : Eng) (s : State) : Out :=
  atomicCmd g s { dIn := 2, dOut := 1 } 4 needW false true (State.cstoreAct g.val 4 cellBelow)

/-- CSTORE64. -/
def execCstore64 (g : Eng) (s : State) : Out :=
  atomicCmd g s { dIn := 3, dOut := 1 } 8 needW false true (State.cstoreAct g.val 8 dcellBelow)

end Sys2Proof.Machine
end

