-- ==== Sys2Proof/Machine/Entry.lean ====
section
/-!
DEFINITION. The events of an engine's pipeline: results and lines that arrive (R321, R327, R328), the drain of the store
buffer (R324, R331, R332), the settle count (R340), spills and fills (R353 to R356), firm windows (R395), and taking an
interrupt or exception (R390 to R410), its last gasp included (R416 to R418).
-/

namespace Sys2Proof.Machine

/-! ### Results (R321) -/

/-- LOAD_COMPLETE: the `k`-th outstanding load of a memory beyond the own scratchpad has its data. -/
def State.loadComplete (s : State) (g k : Nat) : State :=
  let e := s.eng g
  match (e.flights.filter (fun f => f.kind == .tile || f.kind == .fabric))[k]? with
  | some f => s.setEng g (e.finish f.tag [])
  | none => s

/-- MULTIPLY_DIVIDE_COMPLETE: the multiply-divide unit ends and frees. -/
def State.mdComplete (s : State) (g : Nat) : State :=
  let e := s.eng g
  match e.flights.find? (fun f => f.kind == .mul || f.kind == .div) with
  | some f => s.setEng g (e.finish f.tag [])
  | none => s

/-! ### Instruction lines (R327, R328, R459) -/

/-- Whether the line of an address is in the line buffer or the cache. -/
def Engine.hasLine (e : Engine) (g a : Nat) : Bool :=
  (e.line.any (fun l => l.adr == a)) || (mget [] e.icache (a / 32 % icSets g)).any (fun l => l.adr == a)

/-- Whether the instruction at the program counter, or its delay slot, may lie in the line at `base`: the longest of each
has 5 bytes. -/
def Engine.near (e : Engine) (base : Nat) : Bool := base < e.arch.pc.toNat + 10 && e.arch.pc.toNat < base + 32

/-- A line comes into the line buffer. One that met ERR and is not on the architectural path is discarded (R339). -/
def Engine.takeLine (e : Engine) (g : Nat) (l : ILine) : Engine :=
  if l.bad && !e.near l.adr then e else { e.bufferLine g l with missed := some l.adr }

/-- A parity error on a hit: the access becomes a miss, and IC_PARITY counts (R330). -/
def Engine.parityMiss (e : Engine) (g base : Nat) : Engine :=
  let k := base / 32 % icSets g
  let e := e.count pcIcParity
  { e with icache := mset e.icache k ((mget [] e.icache k).filter (fun l => l.adr != base)) }

/-- Whether the copy of a vector's first line is still to come (R415). -/
def Engine.vectorDue (e : Engine) (base : Nat) : Bool := e.vectors.any (fun l => l.adr == base && l.bytes.isEmpty)

/-- LINE_FILL: the line that holds an address arrives, when the fetch may read it (R307) and it misses; for a line that the
cache holds, its hit has met a parity error (R330; DESIGN CHOICE,
log 115). The line of a vector that stands in external memory goes to
the vector line store. `ext` is what external memory holds there. -/
def State.lineFill (s : State) (g a : Nat) (ext : List Byte) (extOk : Bool) : State :=
  let e := s.eng g
  let base := a / 32 * 32
  let extLine : ILine := { adr := base, bytes := (ext ++ List.replicate 32 0).take 32, bad := !extOk }
  if !s.inService g || !s.placed g then s
  else if e.vectorDue base then
    s.modEng g (fun e => { e with vectors := e.vectors.map (fun l => if l.adr == base then extLine else l) })
  else if e.line.any (fun l => l.adr == base) || !allowed e.effPr e.effRing a 1 needX || !fetchPlace g a then s
  else
    let s := if e.hasLine g base then s.modEng g (fun e => e.parityMiss g base) else s
    let r : ILine × State := match engPlace g base with
      | .own x | .tile x | .fabric x => s.memLine base x
      | _ => (extLine, s)
    r.2.modEng g (fun e => e.takeLine g r.1)

/-! ### The store buffer drains (R324, R331, R332) -/

/-- Whether an entry has retired: no older operation is in flight. -/
def Engine.retired (e : Engine) (x : SbEntry) : Bool := e.flights.all (fun f => x.tag ≤ f.tag)

/-- A drained store has its ERR on the way. -/
def State.sbErr (s : State) (g : Nat) (x : SbEntry) : State :=
  s.modEng g (fun e => { e with errs := e.errs ++ [⟨x.faddr, x.ctx⟩] })

/-- A drained store's response is outstanding. -/
def State.sbWait (s : State) (g : Nat) (x : SbEntry) : State :=
  s.modEng g (fun e => { e with waitResp := e.waitResp ++ [⟨x.faddr, x.ctx⟩] })

/-- One entry is performed at its target. -/
def State.sbPerform (s : State) (g : Eng) (x : SbEntry) : State :=
  let n := x.bytes.length
  match sharedPlace none x.adr with
  | .reg _ =>
    let r := s.regWrite (.engine g) x.ring x.adr n (BitVec.ofNat 64 (leVal x.bytes))
    (match r.1 with
      | .done .ok => r.2
      | .later => r.2.sbWait g.val x
      | _ => r.2.sbErr g.val x)
  | .ext _ =>
    let q : MmReq := { who := .store g.val x.faddr x.ctx, write := true, adr := x.adr, len := n, bytes := x.bytes }
    (s.mmAsk q).sbWait g.val x
  | .remote _ =>
    let r := s.remoteStore (.engine g) (.store g.val x.faddr x.ctx) x.pc x.adr n (leVal x.bytes)
    if r.1 then r.2 else r.2.sbWait g.val x
  | .own _ | .tile _ | .fabric _ =>
    if s.writeErr x.adr n then s.sbErr g.val x else (s.wakeMem x.adr).store (x.ring == 0) x.adr x.bytes
  | .unmapped => s.sbErr g.val x

/-- The oldest retired entry drains, a pair whole (R304). -/
def State.sbDrain (s : State) (g : Eng) : State :=
  let e := s.eng g.val
  match e.sb with
  | [] => s
  | x :: r =>
    if !e.retired x then s
    else match x.pair, r with
      | true, y :: r' =>
        let s := s.setEng g.val { e with sb := r' }
        if s.writeErr x.adr x.bytes.length ∨ s.writeErr y.adr y.bytes.length then s.sbErr g.val x
        else (s.sbPerform g x).sbPerform g y
      | _, _ => (s.setEng g.val { e with sb := r }).sbPerform g x

/-- Every retired entry drains. -/
def State.sbDrainAll (s : State) (g : Eng) : (n : Nat) → State
  | 0 => s
  | n + 1 => (s.sbDrain g).sbDrainAll g n

/-- STORE_ERR_RESPONSE: the ERR of a drained store arrives: at the engine when its context runs there, else in the
context's descriptor (R324, R374). -/
def State.storeErrResponse (s : State) (g : Nat) : State :=
  let e := s.eng g
  match e.errs with
  | [] => s
  | x :: r =>
    let s := s.setEng g { e with errs := r }
    if s.placed g && s.ctxOf g == x.ctx then s.modEng g (fun e => { e with arrived := e.arrived ++ [x] })
    else s.deferTo (tileOf g) x

/-! ### The settle count (R340, R341) -/

/-- SETTLE_COMPLETE: mode changes whose count has passed are settled. -/
def State.settleComplete (s : State) (g : Nat) : State :=
  s.modEng g (fun e => { e with arch := { e.arch with settles := e.arch.settles.filter (fun x => 0 < x.left) } })

/-! ### Spills and fills (R353 to R356) -/

/-- The cells of a stack, its pointer and limit, how many its cache holds, and where its actions start and stop. -/
structure StackView where
  cells : List Cell
  sp : Word
  lim : Word
  cap : Nat
  spillAt : Nat
  spillTo : Nat
  fillAt : Nat
  /-- spill and fill at work, and cells that a waiting instruction needs -/
  spilling : Bool
  filling : Bool
  need : Nat

def Engine.view (e : Engine) (ret : Bool) : StackView :=
  let b := e.arch.bank
  if ret then
    { cells := b.rs, sp := b.rsp, lim := b.rslim, cap := 16, spillAt := 6, spillTo := 8, fillAt := 4, spilling := e.spillR,
      filling := e.fillR, need := e.needR }
  else
    { cells := b.ds, sp := b.dsp, lim := b.dslim, cap := 32, spillAt := 10, spillTo := 12, fillAt := 8,
      spilling := e.spillD, filling := e.fillD, need := e.needD }

/-- Cells in memory below the cached ones. -/
def StackView.below (v : StackView) : Nat := stkDepth v.sp v.lim - v.cells.length

/-- Whether a spill, or a fill, is due. -/
def StackView.spillDue (v : StackView) : Bool :=
  v.cap < v.cells.length + (if v.spilling then v.spillTo else v.spillAt)
def StackView.fillDue (v : StackView) : Bool :=
  v.cells.length < max v.fillAt v.need && 0 < v.below

/-- Whether a return action is due, which goes first. -/
def Engine.retDue (e : Engine) : Bool := (e.view true).spillDue || (e.view true).fillDue

/-- The cells of a stack are set. -/
def Engine.setCells (e : Engine) (ret : Bool) (l : List Cell) : Engine :=
  { e with arch := { e.arch with
      bank := if ret then { e.arch.bank with rs := l } else { e.arch.bank with ds := l } } }
def Engine.setWork (e : Engine) (ret spill fill : Bool) : Engine :=
  if ret then { e with spillR := spill, fillR := fill } else { e with spillD := spill, fillD := fill }

/-- Whether the memory under a cell answers. -/
def State.stackAnswers (s : State) (g : Nat) (p : Word) : Bool := areaOk p && !s.memErr (stkAdr g p)

/-- STACK_SPILL: one word of the deepest cached cells goes to the stack area. Cells that wait for an operation are not
spilled, and a memory that answers ERR holds the action (DESIGN CHOICE, log 41). -/
def State.stackSpill (s : State) (g : Nat) (ret : Bool) : State :=
  let e := s.eng g
  let v := e.view ret
  let n := v.cells.length
  let p := spMove v.sp (-(n : Int))
  let k := if p.toNat % 8 = 0 then min 2 n else 1
  let out := v.cells.drop (n - k)
  if !s.inService g || !s.placed g || !v.spillDue || (!ret && e.retDue) || out.any (fun c => c.wait.isSome) ||
      !s.stackAnswers g p then s
  else
    let s := s.spillCells g (spMove v.sp (-((n - k : Nat) : Int))) out
    s.modEng g (fun e =>
      let e := (e.setCells ret (v.cells.take (n - k))).count pcSpills k
      e.setWork ret (v.cap < n - k + v.spillTo) (if ret then e.fillR else e.fillD))

/-- STACK_FILL: the word below the deepest cached cell is read, no cell below BASE. -/
def State.stackFill (s : State) (g : Nat) (ret : Bool) : State :=
  let e := s.eng g
  let v := e.view ret
  let n := v.cells.length
  let p := cellForm v.sp n
  let k := if p.toNat % 8 = 4 then min 2 v.below else 1
  if !s.inService g || !s.placed g || !v.fillDue || (!ret && e.retDue) || !s.stackAnswers g p then s
  else
    let r := (List.range k).foldl (fun f i => f.cell g (cellForm v.sp (n + i))) ({ st := s } : Fill)
    r.st.modEng g (fun e =>
      let e := (e.setCells ret (v.cells ++ r.cells)).count pcFills k
      e.setWork ret (if ret then e.spillR else e.spillD) (n + k < v.fillAt && k < v.below))

/-! ### Firm windows (R395) -/

/-- FIRM_WINDOW_EXPIRY: the count reaches 0. An interrupt that only the window held back is a firm overrun. -/
def State.firmExpiry (s : State) (g : Nat) : State :=
  let e := s.eng g
  if e.firm = 0 then s
  else
    let late := (s.recognisableLevel g false).isSome
    let s := s.setEng g { e with firm := 0 }
    if late then s.report 0 (srcTile (tileOf g) 3) (BitVec.ofNat 32 g) else s

/-! ### Recognition (R390, R403, R404) -/

/-- The boundary B of R403: before the oldest divide or load that has far to go, else after the youngest instruction; and
before a branch whose slot has not run. `late`: the loads within the tile, by the bits of their tags, that will not
complete by r + 12. -/
def Engine.boundary (e : Engine) (late : Nat) : Engine :=
  let far (f : Flight) : Bool := match f.kind with
    | .mul => false
    | .tile => getBit late (f.tag % 64)
    | _ => true
  let e := match e.flights.find? far with
    | some f => e.squashTo f
    | none => { e with hold := .none, needD := 0, needR := 0 }
  e.rollback

/-- INTERRUPT_RECOGNITION: a deferred bus error that has arrived is taken first (R410); then the highest recognisable
interrupt. Which loads within the tile will not complete in time (R403) is timing, and open (log 42). -/
def State.interruptRecognition (s : State) (g : Nat) : State :=
  let e := s.eng g
  if !s.inService g || !s.placed g || e.exc.isSome || e.parking || s.ucStops g then s
  else if e.arrived ≠ [] then
    if e.flights ≠ [] then s else (s.setEng g e.rollback).takeDeferred g
  else match s.recognisable g (0 < e.firm) with
    | some l =>
      let f := if e.flights.any (fun f => f.kind == .tile) then s.free else (0, s)
      f.2.setEng g { e.boundary f.1.toNat with exc := some { code := levelCode l } }
    | none => s

/-! ### Entry (R402 to R409) -/

/-- Whether an exception is an interrupt, by its code, and its level. -/
def excIsInt (c : Nat) : Bool := 12 ≤ c && c ≤ 17
def excLevel (c : Nat) : Nat := c - 12

/-- The exception that is entered: an interrupt is replaced, or taken over, by a higher one (R404, R406). -/
def State.entered (s : State) (g : Nat) (x : Exc) (inWindow : Bool) : Exc :=
  if !excIsInt x.code then x
  else match s.recognisable g (0 < (s.eng g).firm) with
    | some l => if excLevel x.code < l then { x with code := levelCode l, tover := x.tover || inWindow } else x
    | none => x

/-- The cells that entry saves: NTOP, their values with poison as 0, and PMASK (R399, R400, R409). -/
def Bank.topCells (b : Bank) : Nat × List Word × Nat :=
  let n := min 4 (stkDepth b.dsp b.dslim)
  let c (i : Nat) : Cell := if i < n then b.ds.getD i { val := 0 } else { val := 0 }
  (n, (List.range 4).map (fun i => if (c i).poison then 0 else (c i).val), maskOf 4 (fun i => (c i).poison))

/-- The cause word (R400). -/
def causeWord (x : Exc) (ntop pmask : Nat) : Word :=
  BitVec.ofNat 32 (x.code * 2 ^ 24 + x.detail % 256 * 2 ^ 16 + bnat x.defer * 2 ^ 15 + bnat x.tover * 2 ^ 14 +
    pmask * 2 ^ 8 + ntop)

/-- FADDR as saved: 0 for interrupts. -/
def Exc.savedFaddr (x : Exc) : Word := if excIsInt x.code then 0 else x.faddr

/-- The frame that entry writes (R399). -/
def State.frameOf (s : State) (g : Nat) (x : Exc) : List Word :=
  let b := (s.eng g).arch.bank
  let t := b.topCells
  [(s.eng g).arch.pc, pswPut (s.psw g) Bits.PSW_FIRM 0, b.dsp, b.rsp, b.dslim, b.rslim] ++ t.2.1 ++
    [causeWord x t.1 t.2.2, x.savedFaddr, BitVec.ofNat 32 (s.ctxn g), s.time.setWidth 32, 0, 0]

/-- The handler's limit register (R407). -/
def handlerLimit (sp lim : Word) (reserve : Nat) : Word :=
  BitVec.ofNat 32 (spOff sp * 65536 + min 0xFFF8 (max (limTop lim) (spOff sp + 4 * reserve - 4)))

/-- The interrupt level that entry sets (R391, R645). -/
def State.entryIpl (s : State) (g : Nat) (x : Exc) : Nat :=
  let ipl := (s.eng g).ipl
  if x.code = excDebug then max (max ipl (s.get (Adr.DBG_TCTL (tileOf g)) Bits.DBG_TCTL_MLVL)) 1
  else if excIsInt x.code then excLevel x.code + 1
  else max ipl 1

/-- The engine at its handler's first instruction: ring 0, the new limits, EXRING and TSBP moved on (R402, R405, R407). -/
def State.enterHandler (s : State) (g : Nat) (x : Exc) : Engine :=
  let t := tileOf g
  let e := s.eng g
  let b := e.arch.bank
  let res := s.reg (Adr.TIL_XRES t)
  let psw := pswPut (BitVec.ofNat 32 (bandN e.arch.psw.toNat 0x80000000)) Bits.PSW_IPL (s.entryIpl g x)
  let tsbp := pswPut (pswPut e.arch.tsbp Bits.TSBP_FRAME (pswGet e.arch.tsbp Bits.TSBP_FRAME + 1)) Bits.TSBP_LEFT
    (pswGet e.arch.tsbp Bits.TSBP_LEFT - 1)
  let debug := x.code == excDebug
  let vec := e.vectors[x.code - 12]?
  let e1 := e.count pcEntries
  let e2 := { e1 with
    arch := { e1.arch with
      pc := (s.reg (Adr.TIL_VBASE t)).setWidth 32 + BitVec.ofNat 32 (64 * x.code), psw := psw, tsbp := tsbp,
      exring := e.ring :: e.arch.exring, bar := 0, settles := [],
      bank := { b with
        dslim := handlerLimit b.dsp b.dslim (fldOf res Bits.TIL_XRES_DRES)
        rslim := handlerLimit b.rsp b.rslim (fldOf res Bits.TIL_XRES_RRES) } }
    slot := none, exc := none, hold := .none, link := none, firm := 0, needD := 0, needR := 0
    inMon := e.inMon || debug
    monNd := if debug then e.nd else e.monNd
    dbgPend := if debug then false else e.dbgPend }
  let e3 := match vec with
    | some l => if excIsInt x.code && l.bytes.length == 32 then e2.bufferLine g l else e2
    | none => e2
  e3.stepDone

/-! ### Last gasp (R416 to R418, R420) -/

/-- The record of a last gasp, unless one is held. -/
def State.gaspRecord (s : State) (g : Nat) (x : Exc) (reason : Nat) : State :=
  let t := tileOf g
  if s.bit (Adr.TIL_LGSTAT t) (engOf g) then s
  else
    let f := s.frameOf g x
    let words := f.take 6 ++ [(s.eng g).arch.tsbp, frameW f 10, frameW f 11, BitVec.ofNat 32 (reason * 2 ^ 28)] ++
      (f.drop 6).take 4 ++ [0, 0]
    let s := words.zipIdx.foldl (fun s w => s.setReg (Adr.ENG_LG t (engOf g) w.2) (w.1.setWidth 64)) s
    s.setBit (Adr.TIL_LGSTAT t) (engOf g)

/-- The engine freezes and is fenced, and its tile reports. -/
def State.lastGasp (s : State) (g : Eng) (x : Exc) (reason : Nat) : State :=
  let s := (s.gaspRecord g.val x reason).modEng g.val (fun e => { e with frozen := true })
  s.sourceFenceEng g (srcTile (tileOf g.val) 7) (BitVec.ofNat 32 (reason * 256 + g.val))

/-- Why entry cannot save, in the order machine check, nesting, FRAME, LEFT, write (R402, R416, R417). -/
def State.gaspReason (s : State) (g : Nat) (x : Exc) : Option Nat :=
  let e := s.eng g
  if x.code = excMachine then some 4
  else if 7 ≤ e.nd then some 5
  else match framePlace g (pswGet e.arch.tsbp Bits.TSBP_FRAME * 64) with
    | none => some 1
    | some a =>
      if pswGet e.arch.tsbp Bits.TSBP_LEFT = 0 then some 2
      else if (List.range 16).any (fun i => s.writeFails (a + 4 * i) 4) then some 3 else none

/-- The frame's words are written one by one (R399), `n` of them from `a` on. -/
def State.storeWords (s : State) (a : Nat) : List Word → State
  | [] => s
  | w :: r => (s.store false a (leBytes 4 w.toNat)).storeWords (a + 4) r

/-- The words under a frame come to one outcome each before they are met (log 43). -/
def State.settleFrame (s : State) (g : Nat) : State :=
  match framePlace g (pswGet (s.eng g).arch.tsbp Bits.TSBP_FRAME * 64) with
  | none => s
  | some a => (List.range 8).foldl (fun s i => s.settle (a + 8 * i)) s

/-- The most instructions that entry squashes after they reached DC (R344, R405; UNVERIFIED, log 113). -/
def maxSquashed : Nat := 64

/-- The state after entry: the frame is written, and the engine stands at its handler. The younger instructions that had
reached DC, an open number, count in FETCH_SQUASHED. -/
def State.takeEntry (s : State) (g : Nat) (x : Exc) : State :=
  match framePlace g (pswGet (s.eng g).arch.tsbp Bits.TSBP_FRAME * 64) with
  | none => s
  | some a =>
    let e := s.enterHandler g x
    let f := (s.storeWords a (s.frameOf g x)).free
    f.2.setEng g (e.countIn (s.eng g).ring pcSquashed (f.1.toNat % (maxSquashed + 1)))

/-- Whether entry can start: every older operation is complete, and the top cells are cached (R404, R409). -/
def Engine.entryReady (e : Engine) : Bool :=
  e.flights == [] && min 4 (stkDepth e.arch.bank.dsp e.arch.bank.dslim) ≤ e.arch.bank.ds.length

/-- EXCEPTION_ENTRY: the retired stores drain, and entry saves and enters, or is a last gasp. `inWindow`: a higher
interrupt that is recognisable now came within ticks 1 to 6 (R406). -/
def State.exceptionEntry (s : State) (g : Eng) (inWindow : Bool) : State :=
  let e := s.eng g.val
  match e.exc with
  | none => s
  | some x =>
    if !s.inService g.val || !s.placed g.val || !e.entryReady then s
    else
      let x := s.entered g.val x inWindow
      let s := (s.sbDrainAll g e.sb.length).settleFrame g
      if (s.eng g.val).exc.isNone || !s.inService g.val || !s.placed g.val then s
      else match s.gaspReason g.val x with
        | some r => s.lastGasp g x r
        | none => s.takeEntry g.val x

/-! ### The commands -/

/-- LOAD_COMPLETE. -/
def execLoadComplete (g : Eng) (k : Nat) (s : State) : Out := .next (s.loadComplete g.val k)

/-- MULTIPLY_DIVIDE_COMPLETE. -/
def execMultiplyDivideComplete (g : Eng) (s : State) : Out := .next (s.mdComplete g.val)

/-- LINE_FILL. -/
def execLineFill (g : Eng) (a : Word) (ext : List Byte) (extOk : Bool) (s : State) : Out :=
  .next (s.lineFill g.val a.toNat ext extOk)

/-- STORE_BUFFER_DRAIN. -/
def execStoreBufferDrain (g : Eng) (s : State) : Out := .next (s.sbDrain g)

/-- STORE_ERR_RESPONSE. -/
def execStoreErrResponse (g : Eng) (s : State) : Out := .next (s.storeErrResponse g.val)

/-- SETTLE_COMPLETE. -/
def execSettleComplete (g : Eng) (s : State) : Out := .next (s.settleComplete g.val)

/-- STACK_SPILL. -/
def execStackSpill (g : Eng) (ret : Bool) (s : State) : Out := .next (s.stackSpill g.val ret)

/-- STACK_FILL. -/
def execStackFill (g : Eng) (ret : Bool) (s : State) : Out := .next (s.stackFill g.val ret)

/-- INTERRUPT_RECOGNITION. -/
def execInterruptRecognition (g : Eng) (s : State) : Out := .next (s.interruptRecognition g.val)

/-- EXCEPTION_ENTRY. -/
def execExceptionEntry (g : Eng) (inWindow : Bool) (s : State) : Out := .next (s.exceptionEntry g inWindow)

/-- FIRM_WINDOW_EXPIRY. -/
def execFirmWindowExpiry (g : Eng) (s : State) : Out := .next (s.firmExpiry g.val)

end Sys2Proof.Machine
end

