-- ==== Sys2Proof/Machine/Inbound.lean ====
section
/-!
DEFINITION. Accesses from outside the engines: how memory answers them (R459, R470, R583), and the letters that another
block sends for this one (R445, R522, R530, R531).
-/

namespace Sys2Proof.Machine

/-! ### Memory as a target -/

/-- A read of memory by an initiator that is no engine: the wake, ERR, uncorrectable data as ERR. -/
def State.targetRead (s : State) (a n : Nat) : Code × List Byte × State :=
  if s.memErrs a n then (.err, [], s)
  else
    let s := match memTile a with
      | some t => s.wakeNow t
      | none => s
    let g := s.readMem a 40 n
    match g.bad with
    | some _ => (.err, [], g.st)
    | none => (.ok, g.bytes, g.st)

/-- A write of memory. `unlock`: the debug master, which the STATE lock does not hold (R181). -/
def State.targetWrite (s : State) (unlock : Bool) (a : Nat) (bytes : List Byte) : Code × State :=
  if s.writeErr a bytes.length then (.err, s)
  else
    let s := match memTile a with
      | some t => s.wakeNow t
      | none => s
    (.ok, s.store unlock a bytes)

/-- Whether `n` bytes from an address lie in one memory, in register space, or in the external window. -/
inductive Span where
  | mem | reg | ext | remote | none
  deriving DecidableEq, Repr

def spanOf (a n : Nat) : Span :=
  match sharedPlace none a, sharedPlace none (a + n - 1) with
  | .fabric x, .fabric y => if memTile x = memTile y ∧ x % 0x1000000 / 0x800000 = y % 0x1000000 / 0x800000 then .mem else .none
  | .reg _, .reg _ => .reg
  | .ext _, .ext _ => .ext
  | .remote _, .remote _ => .remote
  | _, _ => .none

/-! ### Windows (R530) -/

/-- Whether an enabled window grants a byte. -/
def State.winGrants (s : State) (write : Bool) (a : Nat) : Bool :=
  (List.range 4).any (fun k =>
    let c := s.reg (Adr.RLY_INWIN_CTL k)
    fldOf c Bits.RLY_INWIN_CTL_EN == 1 &&
      fldOf c (if write then Bits.RLY_INWIN_CTL_W else Bits.RLY_INWIN_CTL_R) == 1 &&
      s.get (Adr.RLY_INWIN_BASE k) Bits.RLY_INWIN_BASE_BASE ≤ a / 64 && a / 64 ≤ fldOf c Bits.RLY_INWIN_CTL_LIMIT)

/-- The bytes that a letter's access covers. -/
def Letter.span (l : Letter) : Nat := if l.kind = 0 then l.payload.length else l.rlen

/-! ### The end of a letter -/

/-- INREF of the port by which a letter came; the port of a letter made here is open. -/
def State.inref (s : State) (x : InLetter) : State :=
  match x.port with
  | some p => s.relayFlag p 2 0x25
  | none => s.free.2.relayFlag (s.free.1.toNat % 4) 2 0x25

/-- The reply to a read letter, on its lane; the payload of an ERR is open. -/
def State.readAnswer (s : State) (l : Letter) (ok : Bool) (bytes : List Byte) : State :=
  let p := if ok then (bytes, s) else s.freeBytes l.rlen
  p.2.postLetter { let_ :=
    { kind := 2, dest := l.src, src := s.postcode, urg := l.urg, hops := s.get Adr.RLY_CTL Bits.RLY_CTL_HOPS, tag := l.tag,
      arg := if ok then 0 else 2 ^ 30, payload := p.1 } }

/-- A letter is done: its buffer frees, a refusal or ERR sets INREF, a read is answered, and replies behind it
take effect (R531). -/
def State.letterDone (s : State) (x : InLetter) (ok : Bool) (bytes : List Byte) : State :=
  let s := s.inboxDrop x
  let s := if ok then s else s.inref x
  let s := if x.let_.kind = 1 then s.readAnswer x.let_ ok bytes else s
  s.takeReplies s.inbox.length

/-- A write or read letter is performed. -/
def State.performLetter (s : State) (x : InLetter) : State :=
  let l := x.let_
  let n := l.span
  let write := l.kind == 0
  if !(List.range n).all (fun i => s.winGrants write (l.arg + i)) then s.letterDone x false []
  else match spanOf l.arg n with
    | .mem =>
      if write then
        let r := s.targetWrite false l.arg l.payload
        r.2.letterDone x (r.1 == .ok) []
      else
        let r := s.targetRead l.arg n
        r.2.2.letterDone x (r.1 == .ok) r.2.1
    | .reg =>
      if write then
        let r := s.regWrite .relay 0 l.arg n (BitVec.ofNat 64 (leVal (l.payload.take 8)))
        r.2.letterDone x (r.1 != .done .err) []
      else
        let r := s.regRead .relay l.arg n
        r.2.2.letterDone x (r.1 != .done .err) (leBytes n r.2.1.toNat)
    | .ext =>
      { s.mmAsk { who := .letter x.id, write := write, adr := l.arg, len := n, bytes := l.payload } with
        inbox := s.inbox.map (fun y => if y.id = x.id then { y with issued := true } else y) }
    | _ => s.letterDone x false []

/-- INBOUND_ACCESS: the next write or read letter that may be performed. -/
def State.inboundAccess (s : State) : State :=
  match firstLetter (fun x => x.let_.kind ≤ 1 && !x.issued) [] s.inbox with
  | some x => s.performLetter x
  | none => s

/-- DOORBELL_LETTER_RING: the next doorbell letter whose turn has come rings. -/
def State.letterRing (s : State) : State :=
  match firstLetter (fun x => x.let_.kind == 3) [] s.inbox with
  | some x => ({ s with rings := s.rings ++ [⟨x.let_.arg % 4096, .letter, none⟩] } : State).letterDone x true []
  | none => s

/-- INBOUND_ACCESS. -/
def execInboundAccess (s : State) : Out := .next s.inboundAccess.admitReads

/-- DOORBELL_LETTER_RING. -/
def execDoorbellLetterRing (s : State) : Out := .next s.letterRing

end Sys2Proof.Machine
end

