-- ==== Sys2Proof/Machine/Ports.lean ====
section
/-!
DEFINITION. The host target port (R660 to R666), the memory master port (R668 to R673), the debug master (R638 to R643),
the TAP (R633 to R640, R675), PLL lock (R579) and power-good (R574).
-/

namespace Sys2Proof.Machine

/-! ### One access by the host or the debug master -/

/-- How an access comes out at a port: an answer with data, or one that comes later; a read through the remote window by
the debug master cannot be peeked (R642). -/
inductive PortOut where
  | done (c : Code) (d : DWord)
  | later
  | noPeek
  deriving DecidableEq, Repr

/-- What register space answers. -/
def Served.toPort (x : Served) (d : DWord) : PortOut :=
  match x with
  | .done c => .done c (if c = .ok then d else 0)
  | .later => .later
  | .priv _ => .done .err 0

/-- An access to memory, register space or a window, by its place. The value of a read is right-aligned. -/
def State.portPlace (s : State) (who : Initiator) (id : Nat) (write : Bool) (a n : Nat) (v : Nat) : PortOut × State :=
  match spanOf a n with
  | .mem =>
    if write then
      let r := s.targetWrite (who == .debug) a (leBytes n v)
      (.done r.1 0, r.2)
    else
      let r := s.targetRead a n
      (.done r.1 (BitVec.ofNat 64 (leVal r.2.1)), r.2.2)
  | .reg =>
    if write then
      let r := s.regWrite who 0 a n (BitVec.ofNat 64 v)
      (r.1.toPort 0, r.2)
    else
      let r := s.regRead who a n
      (r.1.toPort r.2.1, r.2.2)
  | .ext =>
    (.later,
      s.mmAsk { who := .port who id n, write := write, adr := a, len := n, bytes := if write then leBytes n v else [] })
  | .remote =>
    if write then
      let r := s.remoteStore who (.port who id n) (s.remotePcOf who) a n v
      (if r.1 then .done .ok 0 else .later, r.2)
    else if who = .debug then (.noPeek, s.put Adr.DBG_STAT Bits.DBG_STAT_NOPEEK 1)
    else (.later, s.remoteLoad who (.port who id n) a n)
  | .none => (.done .err 0, s)

/-- An access by the host or the debug master: alignment (R641, R662), the state of the block, the place. -/
def State.portAccess (s : State) (who : Initiator) (id : Nat) (write : Bool) (a n v : Nat) : PortOut × State :=
  match s.portCode who a write with
  | .ok => if a % n ≠ 0 then (.done .err 0, s) else s.portPlace who id write a n v
  | c => (.done c 0, s)

/-! ### The host target port -/

/-- HOST_REQUEST: a request transfers while fewer than 8 are held, PORESET_N is high and the pin guard does not hold the port
(R664, R677). Its data stand on their byte lanes. -/
def State.hostRequest (s : State) (write : Bool) (a n v : Nat) : State :=
  if s.poreset ∨ s.powerGood ≠ 7 ∨ 8 ≤ s.host.length then s
  else
    let id := s.hostId + 1
    let sh := 2 ^ (8 * (a % 8))
    let s : State := { s with host := s.host ++ [{ id := id, adr := a, size := n }], hostId := id, hostNow := id }
    let r := s.portAccess .host id write a n (v / sh % 2 ^ (8 * n))
    let s : State := { r.2 with hostNow := 0 }
    match r.1 with
    | .done c d =>
      let d := if write then 0 else BitVec.ofNat 64 (d.toNat % 2 ^ (8 * n) * sh)
      (s.answer .host c d).hostDone id c d
    | _ => s

/-- HOST_RESPONSE: the oldest request's answer transfers, when it has come. -/
def State.hostResponse (s : State) : State :=
  match s.host with
  | [] => s
  | r :: rest =>
    match r.done with
    | none => s
    | some (c, d) =>
      let s := ({ s with host := rest } : State).answer .host c d
      match c with
      | .ok => s
      | .err => s.put Adr.BLK_HPSTAT Bits.BLK_HPSTAT_ERRRSP 1
      | .notReady => s.put Adr.BLK_HPSTAT Bits.BLK_HPSTAT_NRDY 1

/-! ### The memory master port -/

/-- The key of an outstanding request: reads by tag, writes behind the 64 read tags. -/
def mmKey (write : Bool) (tag : Nat) : Nat := if write then 64 + tag else tag

/-- The beats of a request. -/
def MmReq.beats (r : MmReq) : Nat := (r.adr % 32 + r.len + 31) / 32

/-- Whether two requests overlap so that the first waits for the second (R671). -/
def MmReq.waitsFor (r o : MmReq) : Bool := (r.write || o.write) && overlaps r.adr r.len o.adr o.len

/-- Whether two requests come from one initiator (R25). -/
def MmWho.same (a b : MmWho) : Bool :=
  match a, b with
  | .load g _, .load h _ | .load g _, .store h _ _ | .store g _ _, .load h _ | .store g _ _, .store h _ _ => g == h
  | .fig t _, .fig u _ => t == u
  | .port w _ _, .port x _ _ => w == x
  | .letter _, .letter _ => true
  | _, _ => false

/-- The lowest free tag. -/
def State.mmTag (s : State) (write : Bool) : Option Nat :=
  firstBelow (if write then 16 else 64) (fun t => !mhas s.mmOut (mmKey write t))

/-- The first waiting request that may go: a tag is free and no outstanding request holds it, or it came while EN was 0;
none of its own initiator stands before it. -/
def State.mmNext (s : State) : (before : List MmReq) → List MmReq → Option (MmReq × List MmReq)
  | _, [] => none
  | before, r :: rest =>
    if (r.base.isNone || ((s.mmTag r.write).isSome && s.mmOut.all (fun o => !r.waitsFor o.2.req))) &&
        before.all (fun b => !b.who.same r.who)
    then some (r, before ++ rest)
    else s.mmNext (before ++ [r]) rest

/-- An answer reaches whoever asked, a letter included. -/
def State.mmAnswer (s : State) (r : MmReq) (ok : Bool) (bytes : List Byte) : State :=
  match r.who with
  | .letter id =>
    match s.inbox.find? (fun x => x.id == id) with
    | some x => s.letterDone x ok bytes
    | none => s
  | w => s.farAnswer w r.write r.adr r.len ok bytes

/-- Whether the port may issue (R673, R677). -/
def State.mmIssues (s : State) : Bool :=
  s.mode != modeBoot && !s.standby && !s.fatal && !s.poreset && s.powerGood == 7

/-- MM_REQUEST: a waiting request is issued; one that came while EN was 0 gets ERR and is not sent (R669, R682). -/
def State.mmRequest (s : State) : State :=
  if !s.mmIssues then s
  else match s.mmNext [] s.mmWait with
    | none => s
    | some (r, rest) =>
      match r.base, s.mmTag r.write with
      | none, _ => ({ s with mmWait := rest } : State).mmAnswer r false []
      | some _, none => s
      | some _, some t =>
        { s with
          mmWait := rest
          mmOut := mset s.mmOut (mmKey r.write t) { req := r }
          mmBeats := if r.write then s.mmBeats ++ [(t, r.beats)] else s.mmBeats }

/-- The external address at which a request is sent (R669, R682). -/
def MmReq.external (r : MmReq) : Nat := r.base.getD 0 * 2 ^ 31 + (r.adr - 0x40000000) / 32 * 32

/-- MM_WRITE_BEAT: the next beat of the oldest write whose beats are not all sent. No beat is offered while PORESET_N is low
(R677). -/
def State.mmWriteBeat (s : State) : State :=
  match s.mmBeats with
  | [] => s
  | (t, n) :: rest => if s.poreset then s else { s with mmBeats := if n ≤ 1 then rest else (t, n - 1) :: rest }

/-- A flag of BLK_MMSTAT. -/
def State.mmFlag (s : State) (f : Fld) : State := s.put Adr.BLK_MMSTAT f 1

/-- MM_RESPONSE: one response beat (R672). A read is complete with its last beat; the port knows it by the count. No beat
transfers while PORESET_N is low: MM_RSP_READY is low (R668). -/
def State.mmResponse (s : State) (write : Bool) (tag : Nat) (ok : Bool) (data : List Byte) : State :=
  let k := mmKey write tag
  if s.poreset then s
  else if !mhas s.mmOut k then s.mmFlag Bits.BLK_MMSTAT_STRAY
  else
    let o := mget { req := { who := .letter 0, write := write, adr := 0, len := 0 } } s.mmOut k
    let got := if write then [] else o.got ++ data
    let last := write || 32 * o.req.beats ≤ got.length
    let bad := o.bad || !ok
    let s : State := { s with mmOut := if last then mdel s.mmOut k else mset s.mmOut k { o with got := got, bad := bad } }
    if o.dead then s.mmFlag Bits.BLK_MMSTAT_LATE
    else
      let s := if ok then s else s.mmFlag Bits.BLK_MMSTAT_MERR
      if last then s.mmAnswer o.req (!bad) ((got.drop (o.req.adr % 32)).take o.req.len) else s

/-- MM_TIMEOUT: no response within TMO µs: ERR, and the tag stays reserved. -/
def State.mmTimeout (s : State) (write : Bool) (tag : Nat) : State :=
  let k := mmKey write tag
  if !mhas s.mmOut k then s
  else
    let o := mget { req := { who := .letter 0, write := write, adr := 0, len := 0 } } s.mmOut k
    if o.dead then s
    else
      let s : State := { s with mmOut := mset s.mmOut k { o with dead := true } }
      ((s.mmFlag Bits.BLK_MMSTAT_TMO).countSat Adr.BLK_MMSTAT Bits.BLK_MMSTAT_TMOCNT).mmAnswer o.req false []

/-! ### The debug master -/

/-- The captured word of a finished command (R638). -/
def DbgMaster.captured (m : DbgMaster) : Nat :=
  (match m.last.code with
    | .ok => 0
    | .err => 1
    | .notReady => 2) + 4 * bnat m.last.noPeek + m.lastAdr * 2 ^ 4 + m.last.data.toNat * 2 ^ 36

/-- Capture-DR of DBGACC: the last finished command, or BUSY; the other bits are open beside BUSY. -/
def State.dbgCapture (s : State) : State :=
  if s.master.cmd.isSome then
    let f := s.free
    { f.2 with tap := { f.2.tap with ir := 8, dr := 3 + f.1.toNat * 4 % 2 ^ 100 } }
  else { s with tap := { s.tap with ir := 8, dr := s.master.captured } }

/-- A command of DBGACC: the capture, and then Update-DR, which is dropped while a command runs. -/
def State.dbgAccess (s : State) (write : Bool) (a n v : Nat) : State :=
  let busy := s.master.cmd.isSome
  let s := s.dbgCapture
  if busy then s
  else
    let s : State := { s with master := { s.master with cmd := some a, ans := none } }
    let r := s.portAccess .debug 0 write a n (v % 2 ^ (8 * n))
    match r.1 with
    | .done c d => r.2.masterDone { code := c, data := BitVec.ofNat 64 (d.toNat % 2 ^ (8 * n)) }
    | .noPeek => r.2.masterDone { noPeek := true }
    | .later => r.2

/-- DEBUG_MASTER_COMPLETE: the command that has its answer is finished. -/
def State.masterComplete (s : State) : State :=
  match s.master.cmd, s.master.ans with
  | some a, some x => { s with master := { lastAdr := a, last := x } }
  | _, _ => s

/-! ### The TAP -/

/-- TAP reset (R633, R635). -/
def State.tapReset (s : State) : State := { s with tap := { s.tap with ir := 1 } }

/-- Whether a boundary cell is an input only (R674). -/
def inputCell (c : Nat) : Bool :=
  (c < 12 && c % 3 != 0) || (12 ≤ c && c < 28 && c % 2 == 1) || c == 38 || 46 ≤ c

/-- A boundary word without the enables of input-only cells. -/
def maskEnables (w : BitVec 100) : BitVec 100 :=
  w &&& BitVec.ofNat 100 (2 ^ 100 - 1 - maskOf 100 (fun i => i % 2 == 1 && inputCell (i / 2)))

/-- EXTEST: in TEST the cells take the word; elsewhere refused, as BYPASS (R637). The pins that it captures are the
world's. -/
def State.extest (s : State) (dr : BitVec 100) : State :=
  if s.mode = modeTest then
    let f := s.free
    let h := f.2.free
    let c := maskEnables (BitVec.ofNat 100 (f.1.toNat + h.1.toNat * 2 ^ 64))
    { h.2 with tap := { ir := 0, dr := c.toNat, cells := maskEnables dr } }
  else
    { s.put Adr.DBG_STAT Bits.DBG_STAT_EXREF 1 with tap := { s.tap with ir := 31, dr := 0 } }

/-- Whether EXTEST drives a cell, and with what level (R675). -/
def State.cellDriven (s : State) (c : Nat) : Option Bool :=
  if s.tap.ir = 0 ∧ s.mode = modeTest ∧ s.tap.cells.getLsbD (2 * c + 1) then some (s.tap.cells.getLsbD (2 * c)) else none

/-- The fault record that FLTREAD captures (R640). -/
def State.faultRecord (s : State) : Nat :=
  let w (a : Nat) : Nat := (s.reg a).toNat % 2 ^ 32
  let rec_ (c : Nat) : Nat := w (firstSrc c) + w (firstDet c) * 2 ^ 32 + (s.reg (firstTime c)).toNat * 2 ^ 64
  rec_ 0 + rec_ 1 * 2 ^ 128 + rec_ 2 * 2 ^ 256 + w Adr.BLK_MODE * 2 ^ 384 + w Adr.FLT_CNT * 2 ^ 416 +
    w Adr.FLT_FTILE * 2 ^ 448 + w Adr.FLT_FPORT * 2 ^ 480 + s.time.toNat * 2 ^ 512

/-! ### PLLs -/

/-- Whether the block, reel and relay PLLs are enabled: in Standby once VREQ has come to FLOOR (R589). -/
def State.pllsOn (s : State) : Bool :=
  !s.poreset && (!s.standby || (s.boot.waking &&
    s.get Adr.MRG_BLKV Bits.MRG_BLKV_FLOOR ≤ s.get Adr.MRG_BLKV Bits.MRG_BLKV_VREQ))

/-- PLL_LOCK: 0 block, 1 reel, 2 relay, 3 + t tile t. With the last of the three in Standby the warm restart begins. -/
def State.pllLock (s : State) (k : Nat) : State :=
  if k < 3 then
    if !s.pllsOn then s
    else
      let s : State := { s with plls := putBits s.plls k 1 1 }
      if s.standby then (if getBits s.plls 0 3 = 7 then s.warmRestart true false else s)
      else
        let s := if k = 1 then (List.range 8).foldl State.reelLit s else s
        let s := if k = 2 then (List.range 4).foldl State.relayLit s else s
        s.bootAdvance
  else if k < 15 ∧ s.sleep (k - 3) < 2 ∧ !s.poreset then { s with plls := putBits s.plls k 1 1 }
  else s

/-! ### The commands -/

/-- HOST_REQUEST. -/
def execHostRequest (write : Bool) (a : Word) (size : Fin 4) (v : DWord) (s : State) : Out :=
  .next (s.hostRequest write a.toNat (2 ^ size.val) v.toNat).admitReads

/-- HOST_RESPONSE. -/
def execHostResponse (s : State) : Out := .next s.hostResponse

/-- MM_REQUEST. -/
def execMmRequest (s : State) : Out := .next s.mmRequest

/-- MM_WRITE_BEAT. -/
def execMmWriteBeat (s : State) : Out := .next s.mmWriteBeat

/-- MM_RESPONSE; LAST repeats what the count of beats says. -/
def execMmResponse (write : Bool) (tag : BitVec 6) (code : MemCode) (v : BitVec 256) (_last : Bool) (s : State) : Out :=
  .next (s.mmResponse write tag.toNat (code == .ok) (leBytes 32 v.toNat))

/-- MM_TIMEOUT. -/
def execMmTimeout (write : Bool) (tag : BitVec 6) (s : State) : Out := .next (s.mmTimeout write tag.toNat)

/-- DBGACC_READ. -/
def execDbgaccRead (a : Word) (size : Fin 4) (s : State) : Out :=
  .next (s.dbgAccess false a.toNat (2 ^ size.val) 0)

/-- DBGACC_WRITE. -/
def execDbgaccWrite (a : Word) (size : Fin 4) (v : DWord) (s : State) : Out :=
  .next (s.dbgAccess true a.toNat (2 ^ size.val) v.toNat)

/-- DEBUG_MASTER_COMPLETE. -/
def execDebugMasterComplete (s : State) : Out := .next s.masterComplete

/-- TAP_RESET. -/
def execTapReset (s : State) : Out := .next s.tapReset

/-- EXTEST. -/
def execExtest (dr : BitVec 100) (s : State) : Out := .next (s.extest dr)

/-- IDCODE. -/
def execIdcode (s : State) : Out := .next { s with tap := { s.tap with ir := 1, dr := 0x200C056B } }

/-- SAMPLE_PRELOAD. -/
def execSamplePreload (pins : BitVec 100) (dr : BitVec 100) (s : State) : Out :=
  .next { s with tap := { ir := 2, dr := (maskEnables pins).toNat, cells := maskEnables dr } }

/-- BYPASS. -/
def execBypass (s : State) : Out := .next { s with tap := { s.tap with ir := 31, dr := 0 } }

/-- FLTREAD. -/
def execFltread (s : State) : Out := .next { s with tap := { s.tap with ir := 9, dr := s.faultRecord } }

/-- PLL_LOCK. -/
def execPllLock (k : Nat) (s : State) : Out := .next (s.pllLock k)

/-- POWER_GOOD: the pin guard holds the outputs until all three are high (R574), and a transmit pair
that it holds carries no cycle frames (R243). -/
def execPowerGood (io : Bool) (ana : Bool) (core : Bool) (s : State) : Out :=
  let s : State := { s with powerGood := bnat io + 2 * bnat ana + 4 * bnat core }
  .next (if s.powerGood = 7 then s else s.reelsStop true)

end Sys2Proof.Machine
end

