-- ==== Sys2Proof/Machine/Dispatch.lean ====
section
/-!
DEFINITION. One arm per command: its meaning, by one direct call.
-/

namespace Sys2Proof.Machine

/-- The effect of a command on everything but the queue. -/
def exec (i : Instr) (s : State) : Host.Outcome State Fault Refusal :=
  match i with
  | .slit g n => Sys2Proof.Machine.execSlit g n s
  | .lit8 g b => Sys2Proof.Machine.execLit8 g b s
  | .lit8u g b => Sys2Proof.Machine.execLit8u g b s
  | .lit16 g h => Sys2Proof.Machine.execLit16 g h s
  | .lit16u g h => Sys2Proof.Machine.execLit16u g h s
  | .lit32 g w => Sys2Proof.Machine.execLit32 g w s
  | .dup g => Sys2Proof.Machine.execDup g s
  | .drop g => Sys2Proof.Machine.execDrop g s
  | .swap g => Sys2Proof.Machine.execSwap g s
  | .over g => Sys2Proof.Machine.execOver g s
  | .rot g => Sys2Proof.Machine.execRot g s
  | .nip g => Sys2Proof.Machine.execNip g s
  | .tuck g => Sys2Proof.Machine.execTuck g s
  | .pick g k => Sys2Proof.Machine.execPick g k s
  | .twoDup g => Sys2Proof.Machine.execTwoDup g s
  | .twoDrop g => Sys2Proof.Machine.execTwoDrop g s
  | .twoSwap g => Sys2Proof.Machine.execTwoSwap g s
  | .twoOver g => Sys2Proof.Machine.execTwoOver g s
  | .toR g => Sys2Proof.Machine.execToR g s
  | .rFrom g => Sys2Proof.Machine.execRFrom g s
  | .rFetch g => Sys2Proof.Machine.execRFetch g s
  | .rdrop g => Sys2Proof.Machine.execRdrop g s
  | .and g => Sys2Proof.Machine.execAnd g s
  | .or g => Sys2Proof.Machine.execOr g s
  | .xor g => Sys2Proof.Machine.execXor g s
  | .not g => Sys2Proof.Machine.execNot g s
  | .shl g => Sys2Proof.Machine.execShl g s
  | .shr g => Sys2Proof.Machine.execShr g s
  | .sar g => Sys2Proof.Machine.execSar g s
  | .rol g => Sys2Proof.Machine.execRol g s
  | .ror g => Sys2Proof.Machine.execRor g s
  | .shli g k => Sys2Proof.Machine.execShli g k s
  | .shri g k => Sys2Proof.Machine.execShri g k s
  | .sari g k => Sys2Proof.Machine.execSari g k s
  | .clz g => Sys2Proof.Machine.execClz g s
  | .popc g => Sys2Proof.Machine.execPopc g s
  | .bswap g => Sys2Proof.Machine.execBswap g s
  | .brev g => Sys2Proof.Machine.execBrev g s
  | .add g => Sys2Proof.Machine.execAdd g s
  | .sub g => Sys2Proof.Machine.execSub g s
  | .neg g => Sys2Proof.Machine.execNeg g s
  | .abs g => Sys2Proof.Machine.execAbs g s
  | .inc g => Sys2Proof.Machine.execInc g s
  | .dec g => Sys2Proof.Machine.execDec g s
  | .addi g b => Sys2Proof.Machine.execAddi g b s
  | .min g => Sys2Proof.Machine.execMin g s
  | .max g => Sys2Proof.Machine.execMax g s
  | .umin g => Sys2Proof.Machine.execUmin g s
  | .umax g => Sys2Proof.Machine.execUmax g s
  | .eq g => Sys2Proof.Machine.execEq g s
  | .lt g => Sys2Proof.Machine.execLt g s
  | .ult g => Sys2Proof.Machine.execUlt g s
  | .zeq g => Sys2Proof.Machine.execZeq g s
  | .sext g k => Sys2Proof.Machine.execSext g k s
  | .adc g => Sys2Proof.Machine.execAdc g s
  | .sbb g => Sys2Proof.Machine.execSbb g s
  | .dadd g => Sys2Proof.Machine.execDadd g s
  | .dsub g => Sys2Proof.Machine.execDsub g s
  | .dneg g => Sys2Proof.Machine.execDneg g s
  | .dshl g => Sys2Proof.Machine.execDshl g s
  | .dshr g => Sys2Proof.Machine.execDshr g s
  | .dsar g => Sys2Proof.Machine.execDsar g s
  | .sToD g => Sys2Proof.Machine.execSToD g s
  | .dToS g => Sys2Proof.Machine.execDToS g s
  | .clc g => Sys2Proof.Machine.execClc g s
  | .setc g => Sys2Proof.Machine.execSetc g s
  | .getc g => Sys2Proof.Machine.execGetc g s
  | .dlt g => Sys2Proof.Machine.execDlt g s
  | .dult g => Sys2Proof.Machine.execDult g s
  | .mul g => Sys2Proof.Machine.execMul g s
  | .umul g => Sys2Proof.Machine.execUmul g s
  | .mulw g => Sys2Proof.Machine.execMulw g s
  | .umulw g => Sys2Proof.Machine.execUmulw g s
  | .div g => Sys2Proof.Machine.execDiv g s
  | .udiv g => Sys2Proof.Machine.execUdiv g s
  | .mod g => Sys2Proof.Machine.execMod g s
  | .umod g => Sys2Proof.Machine.execUmod g s
  | .divmod g => Sys2Proof.Machine.execDivmod g s
  | .udivmod g => Sys2Proof.Machine.execUdivmod g s
  | .udivw g => Sys2Proof.Machine.execUdivw g s
  | .divw g => Sys2Proof.Machine.execDivw g s
  | .qadd g => Sys2Proof.Machine.execQadd g s
  | .qsub g => Sys2Proof.Machine.execQsub g s
  | .qmul g => Sys2Proof.Machine.execQmul g s
  | .qmulr g => Sys2Proof.Machine.execQmulr g s
  | .qaddl g => Sys2Proof.Machine.execQaddl g s
  | .qsubl g => Sys2Proof.Machine.execQsubl g s
  | .qmull g => Sys2Proof.Machine.execQmull g s
  | .qmullr g => Sys2Proof.Machine.execQmullr g s
  | .qneg g => Sys2Proof.Machine.execQneg g s
  | .qabs g => Sys2Proof.Machine.execQabs g s
  | .qnegl g => Sys2Proof.Machine.execQnegl g s
  | .qabsl g => Sys2Proof.Machine.execQabsl g s
  | .sath g => Sys2Proof.Machine.execSath g s
  | .qshl g => Sys2Proof.Machine.execQshl g s
  | .qrshr g => Sys2Proof.Machine.execQrshr g s
  | .aclr g => Sys2Proof.Machine.execAclr g s
  | .mac g => Sys2Proof.Machine.execMac g s
  | .msu g => Sys2Proof.Machine.execMsu g s
  | .qmac g => Sys2Proof.Machine.execQmac g s
  | .umac g => Sys2Proof.Machine.execUmac g s
  | .accget g => Sys2Proof.Machine.execAccget g s
  | .accset g => Sys2Proof.Machine.execAccset g s
  | .accq g k => Sys2Proof.Machine.execAccq g k s
  | .rdsr g n => Sys2Proof.Machine.execRdsr g n s
  | .wrsr g n => Sys2Proof.Machine.execWrsr g n s
  | .fig g n => Sys2Proof.Machine.execFig g n s
  | .figTry g n => Sys2Proof.Machine.execFigTry g n s
  | .setvl g => Sys2Proof.Machine.execSetvl g s
  | .getvl g => Sys2Proof.Machine.execGetvl g s
  | .wait g => Sys2Proof.Machine.execWait g s
  | .waitTry g => Sys2Proof.Machine.execWaitTry g s
  | .bra g d => Sys2Proof.Machine.execBra g d s
  | .call g d => Sys2Proof.Machine.execCall g d s
  | .ret g => Sys2Proof.Machine.execRet g s
  | .jmpi g => Sys2Proof.Machine.execJmpi g s
  | .calli g => Sys2Proof.Machine.execCalli g s
  | .bz g d => Sys2Proof.Machine.execBz g d s
  | .bnz g d => Sys2Proof.Machine.execBnz g d s
  | .bzA g d => Sys2Proof.Machine.execBzA g d s
  | .bnzA g d => Sys2Proof.Machine.execBnzA g d s
  | .next g d => Sys2Proof.Machine.execNext g d s
  | .nextA g d => Sys2Proof.Machine.execNextA g d s
  | .nop g => Sys2Proof.Machine.execNop g s
  | .gate g n => Sys2Proof.Machine.execGate g n s
  | .gret g => Sys2Proof.Machine.execGret g s
  | .eret g => Sys2Proof.Machine.execEret g s
  | .firm g n => Sys2Proof.Machine.execFirm g n s
  | .firmEnd g => Sys2Proof.Machine.execFirmEnd g s
  | .waiti g => Sys2Proof.Machine.execWaiti g s
  | .pflushCtx g => Sys2Proof.Machine.execPflushCtx g s
  | .pflushAll g => Sys2Proof.Machine.execPflushAll g s
  | .pbar g n => Sys2Proof.Machine.execPbar g n s
  | .sync g => Sys2Proof.Machine.execSync g s
  | .syncI g => Sys2Proof.Machine.execSyncI g s
  | .ld8u g => Sys2Proof.Machine.execLd8u g s
  | .ld8s g => Sys2Proof.Machine.execLd8s g s
  | .ld16u g => Sys2Proof.Machine.execLd16u g s
  | .ld16s g => Sys2Proof.Machine.execLd16s g s
  | .ld32 g => Sys2Proof.Machine.execLd32 g s
  | .ld64 g => Sys2Proof.Machine.execLd64 g s
  | .st8 g => Sys2Proof.Machine.execSt8 g s
  | .st16 g => Sys2Proof.Machine.execSt16 g s
  | .st32 g => Sys2Proof.Machine.execSt32 g s
  | .st64 g => Sys2Proof.Machine.execSt64 g s
  | .ld32d g d => Sys2Proof.Machine.execLd32d g d s
  | .st32d g d => Sys2Proof.Machine.execSt32d g d s
  | .ld32a g w => Sys2Proof.Machine.execLd32a g w s
  | .st32a g w => Sys2Proof.Machine.execSt32a g w s
  | .ld64d g d => Sys2Proof.Machine.execLd64d g d s
  | .st64d g d => Sys2Proof.Machine.execSt64d g d s
  | .aadd g => Sys2Proof.Machine.execAadd g s
  | .aswap g => Sys2Proof.Machine.execAswap g s
  | .link g => Sys2Proof.Machine.execLink g s
  | .cstore g => Sys2Proof.Machine.execCstore g s
  | .link64 g => Sys2Proof.Machine.execLink64 g s
  | .cstore64 g => Sys2Proof.Machine.execCstore64 g s
  | .loadComplete g k => Sys2Proof.Machine.execLoadComplete g k s
  | .multiplyDivideComplete g => Sys2Proof.Machine.execMultiplyDivideComplete g s
  | .lineFill g a ext extOk => Sys2Proof.Machine.execLineFill g a ext extOk s
  | .storeBufferDrain g => Sys2Proof.Machine.execStoreBufferDrain g s
  | .storeErrResponse g => Sys2Proof.Machine.execStoreErrResponse g s
  | .settleComplete g => Sys2Proof.Machine.execSettleComplete g s
  | .stackSpill g ret => Sys2Proof.Machine.execStackSpill g ret s
  | .stackFill g ret => Sys2Proof.Machine.execStackFill g ret s
  | .interruptRecognition g => Sys2Proof.Machine.execInterruptRecognition g s
  | .exceptionEntry g inWindow => Sys2Proof.Machine.execExceptionEntry g inWindow s
  | .firmWindowExpiry g => Sys2Proof.Machine.execFirmWindowExpiry g s
  | .tilVbaseWrite who t v => Sys2Proof.Machine.execTilVbaseWrite who t v s
  | .calLoad who t c => Sys2Proof.Machine.execCalLoad who t c s
  | .calHold who t c => Sys2Proof.Machine.execCalHold who t c s
  | .calRelease who t c => Sys2Proof.Machine.execCalRelease who t c s
  | .calFree who t c => Sys2Proof.Machine.execCalFree who t c s
  | .calReady who t c => Sys2Proof.Machine.execCalReady who t c s
  | .parkWait g => Sys2Proof.Machine.execParkWait g s
  | .parkYield g => Sys2Proof.Machine.execParkYield g s
  | .parkEnd g => Sys2Proof.Machine.execParkEnd g s
  | .callerDecision t => Sys2Proof.Machine.execCallerDecision t s
  | .preload g => Sys2Proof.Machine.execPreload g s
  | .contextSwitch g => Sys2Proof.Machine.execContextSwitch g s
  | .bankDrain g => Sys2Proof.Machine.execBankDrain g s
  | .xsaveWriteback g => Sys2Proof.Machine.execXsaveWriteback g s
  | .blkDoorbell who v => Sys2Proof.Machine.execBlkDoorbell who v s
  | .tilDoorbell who t v => Sys2Proof.Machine.execTilDoorbell who t v s
  | .doorbellRing => Sys2Proof.Machine.execDoorbellRing s
  | .tilClaim who t src => Sys2Proof.Machine.execTilClaim who t src s
  | .dbdescWrite who src v => Sys2Proof.Machine.execDbdescWrite who src v s
  | .quadCount e a b => Sys2Proof.Machine.execQuadCount e a b s
  | .index e a b z => Sys2Proof.Machine.execIndex e a b z s
  | .ssiFrameStart e dataHigh => Sys2Proof.Machine.execSsiFrameStart e dataHigh s
  | .ssiSample e bits => Sys2Proof.Machine.execSsiSample e bits s
  | .standstillEntry e => Sys2Proof.Machine.execStandstillEntry e s
  | .angleUpdate => Sys2Proof.Machine.execAngleUpdate s
  | .predictiveWakeTimeout t => Sys2Proof.Machine.execPredictiveWakeTimeout t s
  | .angCprWrite who e v => Sys2Proof.Machine.execAngCprWrite who e v s
  | .angCmpWrite who t k r v => Sys2Proof.Machine.execAngCmpWrite who t k r v s
  | .angTimeset who v => Sys2Proof.Machine.execAngTimeset who v s
  | .systemTimeTick => Sys2Proof.Machine.execSystemTimeTick s
  | .timeLetterSend => Sys2Proof.Machine.execTimeLetterSend s
  | .timeLetterReceive p frame elapsed residence => Sys2Proof.Machine.execTimeLetterReceive p frame elapsed residence s
  | .broadcastTimeout => Sys2Proof.Machine.execBroadcastTimeout s
  | .modeChange who v => Sys2Proof.Machine.execModeChange who v s
  | .commitGo who c => Sys2Proof.Machine.execCommitGo who c s
  | .commitDiscard who c => Sys2Proof.Machine.execCommitDiscard who c s
  | .figureStart t => Sys2Proof.Machine.execFigureStart t s
  | .sequencerStep t => Sys2Proof.Machine.execSequencerStep t s
  | .figLoadStage t => Sys2Proof.Machine.execFigLoadStage t s
  | .figMapStage t => Sys2Proof.Machine.execFigMapStage t s
  | .figMacStage t => Sys2Proof.Machine.execFigMacStage t s
  | .figPackStage t => Sys2Proof.Machine.execFigPackStage t s
  | .figStoreStage t => Sys2Proof.Machine.execFigStoreStage t s
  | .figureComplete t => Sys2Proof.Machine.execFigureComplete t s
  | .figAbort who t => Sys2Proof.Machine.execFigAbort who t s
  | .figTableAccess t => Sys2Proof.Machine.execFigTableAccess t s
  | .reelAddr who n => Sys2Proof.Machine.execReelAddr who n s
  | .reelEn who n => Sys2Proof.Machine.execReelEn who n s
  | .addrFrameReturn n crcGood count descs loopNs => Sys2Proof.Machine.execAddrFrameReturn n crcGood count descs loopNs s
  | .confFrameReturn n crcGood acks => Sys2Proof.Machine.execConfFrameReturn n crcGood acks s
  | .passTimeout n => Sys2Proof.Machine.execPassTimeout n s
  | .cycleStart n c => Sys2Proof.Machine.execCycleStart n c s
  | .keepCycleStart n => Sys2Proof.Machine.execKeepCycleStart n s
  | .slotTransmit n => Sys2Proof.Machine.execSlotTransmit n s
  | .returnSlotReceive n hdrGood r => Sys2Proof.Machine.execReturnSlotReceive n hdrGood r s
  | .returnComplete n hdr loopNs => Sys2Proof.Machine.execReturnComplete n hdr loopNs s
  | .reelClose who n v => Sys2Proof.Machine.execReelClose who n v s
  | .reelExp who n v => Sys2Proof.Machine.execReelExp who n v s
  | .expressFrameStart n => Sys2Proof.Machine.execExpressFrameStart n s
  | .expressAllowanceOpen n => Sys2Proof.Machine.execExpressAllowanceOpen n s
  | .expressFrameReturn n intact acks => Sys2Proof.Machine.execExpressFrameReturn n intact acks s
  | .lockLoss n => Sys2Proof.Machine.execLockLoss n s
  | .lockRegain n => Sys2Proof.Machine.execLockRegain n s
  | .lossSetReceive n pos => Sys2Proof.Machine.execLossSetReceive n pos s
  | .eventSetReceive n pos => Sys2Proof.Machine.execEventSetReceive n pos s
  | .trainingComplete p peer rounds => Sys2Proof.Machine.execTrainingComplete p peer rounds s
  | .trainingTimeout x => Sys2Proof.Machine.execTrainingTimeout x s
  | .blockLockLoss p => Sys2Proof.Machine.execBlockLockLoss p s
  | .retrain who p => Sys2Proof.Machine.execRetrain who p s
  | .letterReceive p frame => Sys2Proof.Machine.execLetterReceive p frame s
  | .letterForward p urg => Sys2Proof.Machine.execLetterForward p urg s
  | .letterWaitTimeout p urg => Sys2Proof.Machine.execLetterWaitTimeout p urg s
  | .creditReceive p bulk n => Sys2Proof.Machine.execCreditReceive p bulk n s
  | .notreadyReceive p => Sys2Proof.Machine.execNotreadyReceive p s
  | .pingSend p => Sys2Proof.Machine.execPingSend p s
  | .pingReceive p x => Sys2Proof.Machine.execPingReceive p x s
  | .pongReceive p seq turn round => Sys2Proof.Machine.execPongReceive p seq turn round s
  | .remoteWrite who a size v => Sys2Proof.Machine.execRemoteWrite who a size v s
  | .remoteRead who a size => Sys2Proof.Machine.execRemoteRead who a size s
  | .readReplyReceive tag status v => Sys2Proof.Machine.execReadReplyReceive tag status v s
  | .readTimeout tag => Sys2Proof.Machine.execReadTimeout tag s
  | .inboundAccess => Sys2Proof.Machine.execInboundAccess s
  | .doorbellLetterRing => Sys2Proof.Machine.execDoorbellLetterRing s
  | .faultCollect => Sys2Proof.Machine.execFaultCollect s
  | .tileWireFault t => Sys2Proof.Machine.execTileWireFault t s
  | .hostFaultInput p n => Sys2Proof.Machine.execHostFaultInput p n s
  | .fltAck who v => Sys2Proof.Machine.execFltAck who v s
  | .fltTest who v => Sys2Proof.Machine.execFltTest who v s
  | .fence who kind ix => Sys2Proof.Machine.execFence who kind ix s
  | .fenceRelease who kind ix => Sys2Proof.Machine.execFenceRelease who kind ix s
  | .tilWdsvc who t => Sys2Proof.Machine.execTilWdsvc who t s
  | .engineWatchdogExpiry g => Sys2Proof.Machine.execEngineWatchdogExpiry g s
  | .blkWdog who v => Sys2Proof.Machine.execBlkWdog who v s
  | .blockWatchdogExpiry => Sys2Proof.Machine.execBlockWatchdogExpiry s
  | .aliveToggle => Sys2Proof.Machine.execAliveToggle s
  | .powerOnReset straps => Sys2Proof.Machine.execPowerOnReset straps s
  | .poresetAssert => Sys2Proof.Machine.execPoresetAssert s
  | .powerRemoval => Sys2Proof.Machine.execPowerRemoval s
  | .standbyEnter who => Sys2Proof.Machine.execStandbyEnter who s
  | .standbyWake who => Sys2Proof.Machine.execStandbyWake who s
  | .tileOff who t => Sys2Proof.Machine.execTileOff who t s
  | .tileOn who t => Sys2Proof.Machine.execTileOn who t s
  | .dozeEntry t => Sys2Proof.Machine.execDozeEntry t s
  | .napEntry t => Sys2Proof.Machine.execNapEntry t s
  | .tileWake t => Sys2Proof.Machine.execTileWake t s
  | .liveTrip t => Sys2Proof.Machine.execLiveTrip t s
  | .quickCheck t d => Sys2Proof.Machine.execQuickCheck t d s
  | .sweepDue => Sys2Proof.Machine.execSweepDue s
  | .sweepGo who => Sys2Proof.Machine.execSweepGo who s
  | .fullSweep t d => Sys2Proof.Machine.execFullSweep t d s
  | .checkComplete t => Sys2Proof.Machine.execCheckComplete t s
  | .runtimeHour => Sys2Proof.Machine.execRuntimeHour s
  | .vreqStep => Sys2Proof.Machine.execVreqStep s
  | .fclkStep t => Sys2Proof.Machine.execFclkStep t s
  | .regulatorAck t => Sys2Proof.Machine.execRegulatorAck t s
  | .scrubRead u m => Sys2Proof.Machine.execScrubRead u m s
  | .correctionWriteback => Sys2Proof.Machine.execCorrectionWriteback s
  | .marchTransparent who t v => Sys2Proof.Machine.execMarchTransparent who t v s
  | .marchCMinus who t v => Sys2Proof.Machine.execMarchCMinus who t v s
  | .bankMigration who t v => Sys2Proof.Machine.execBankMigration who t v s
  | .rowRepair who t v => Sys2Proof.Machine.execRowRepair who t v s
  | .libMarchTransparent who v => Sys2Proof.Machine.execLibMarchTransparent who v s
  | .libMarchCMinus who v => Sys2Proof.Machine.execLibMarchCMinus who v s
  | .libRowRepair who v => Sys2Proof.Machine.execLibRowRepair who v s
  | .marchComplete u fails => Sys2Proof.Machine.execMarchComplete u fails s
  | .ucReload who t v => Sys2Proof.Machine.execUcReload who t v s
  | .ucVerify who t v => Sys2Proof.Machine.execUcVerify who t v s
  | .ucCommandComplete t => Sys2Proof.Machine.execUcCommandComplete t s
  | .flashDiscovery d => Sys2Proof.Machine.execFlashDiscovery d s
  | .headerCheck bytes readOk => Sys2Proof.Machine.execHeaderCheck bytes readOk s
  | .sectionLoad bytes readOk => Sys2Proof.Machine.execSectionLoad bytes readOk s
  | .groupCommitStep => Sys2Proof.Machine.execGroupCommitStep s
  | .relayWaitEnd => Sys2Proof.Machine.execRelayWaitEnd s
  | .bootKdone who => Sys2Proof.Machine.execBootKdone who s
  | .keeperWaitTimeout => Sys2Proof.Machine.execKeeperWaitTimeout s
  | .bootGo who => Sys2Proof.Machine.execBootGo who s
  | .bootExt who => Sys2Proof.Machine.execBootExt who s
  | .bootRestart who => Sys2Proof.Machine.execBootRestart who s
  | .tileRestart t header sections => Sys2Proof.Machine.execTileRestart t header sections s
  | .tapReset => Sys2Proof.Machine.execTapReset s
  | .extest dr => Sys2Proof.Machine.execExtest dr s
  | .idcode => Sys2Proof.Machine.execIdcode s
  | .samplePreload pins dr => Sys2Proof.Machine.execSamplePreload pins dr s
  | .bypass => Sys2Proof.Machine.execBypass s
  | .fltread => Sys2Proof.Machine.execFltread s
  | .dbgaccRead a size => Sys2Proof.Machine.execDbgaccRead a size s
  | .dbgaccWrite a size v => Sys2Proof.Machine.execDbgaccWrite a size v s
  | .debugMasterComplete => Sys2Proof.Machine.execDebugMasterComplete s
  | .halt who g => Sys2Proof.Machine.execHalt who g s
  | .clrpend who g => Sys2Proof.Machine.execClrpend who g s
  | .triggerWrite who t n r v => Sys2Proof.Machine.execTriggerWrite who t n r v s
  | .pbInWrite who g v => Sys2Proof.Machine.execPbInWrite who g v s
  | .pbInRead who g => Sys2Proof.Machine.execPbInRead who g s
  | .pbOutWrite who g v => Sys2Proof.Machine.execPbOutWrite who g v s
  | .hostRequest write a size v => Sys2Proof.Machine.execHostRequest write a size v s
  | .hostResponse => Sys2Proof.Machine.execHostResponse s
  | .mmRequest => Sys2Proof.Machine.execMmRequest s
  | .mmWriteBeat => Sys2Proof.Machine.execMmWriteBeat s
  | .mmResponse write tag code v last => Sys2Proof.Machine.execMmResponse write tag code v last s
  | .mmTimeout write tag => Sys2Proof.Machine.execMmTimeout write tag s
  | .pcClear g v => Sys2Proof.Machine.execPcClear g v s
  | .skipsRead who t k => Sys2Proof.Machine.execSkipsRead who t k s
  | .pwcntRead who t => Sys2Proof.Machine.execPwcntRead who t s
  | .exstatRead who n => Sys2Proof.Machine.execExstatRead who n s
  | .reelCntRead who n => Sys2Proof.Machine.execReelCntRead who n s
  | .exdropRead who n => Sys2Proof.Machine.execExdropRead who n s
  | .lostevRead who t => Sys2Proof.Machine.execLostevRead who t s
  | .memcntRead who t => Sys2Proof.Machine.execMemcntRead who t s
  | .libcntRead who => Sys2Proof.Machine.execLibcntRead who s
  | .ucCntRead who t => Sys2Proof.Machine.execUcCntRead who t s
  | .rdstatRead who => Sys2Proof.Machine.execRdstatRead who s
  | .rlyCntRead who p => Sys2Proof.Machine.execRlyCntRead who p s
  | .fltCntRead who => Sys2Proof.Machine.execFltCntRead who s
  | .kcallRead who t => Sys2Proof.Machine.execKcallRead who t s
  | .mmstatRead who => Sys2Proof.Machine.execMmstatRead who s
  | .tptrRead who t => Sys2Proof.Machine.execTptrRead who t s
  | .registerWrite who a size v => Sys2Proof.Machine.execRegisterWrite who a size v s
  | .illegalOpcode g bytes => Sys2Proof.Machine.execIllegalOpcode g bytes s
  | .pllLock k => Sys2Proof.Machine.execPllLock k s
  | .powerGood io ana core => Sys2Proof.Machine.execPowerGood io ana core s

end Sys2Proof.Machine
end

