-- ==== Sys2Proof/Safety.lean ====
section
/-!
DEFINITION. What the statements mean by a command that completes, by an engine that issues an instruction with operands at
hand, and by an access that a register accepts.
-/

namespace Sys2Proof

open Machine

/-- A command completes in a state, and leaves the state `t`. -/
def Completes (c : Instr) (s t : State) : Prop := exec c s = .next t

/-- A step answers a next state. -/
def StepsOn (s : State) : Prop := ∃ t, step s = .next t

/-- Nothing stands between an engine and the instruction of `n` bytes at its program counter: the engine issues (its tile
runs, nothing is fenced, a context runs, no exception or switch is due), no store error waits for the boundary (R324),
the bytes may be fetched (R306, R307) and are at hand (R328), the instruction's micro-program ends as it should (R487,
R492, R498), and the break and watch unit is off (R658). -/
structure Issues (s : State) (g n : Nat) : Prop where
  runs : s.canIssue g = true
  noErr : (s.eng g).slot = none → (s.eng g).arrived = []
  fetched : s.fetchFault g (s.eng g).arch.pc.toNat n = none
  lines : s.atHand g (s.eng g).arch.pc.toNat n = true
  sound : s.dispatch g = .done
  unwatched : s.get (Adr.DBG_TCTL (tileOf g)) Bits.DBG_TCTL_EN = 0

/-- The instruction is no delay slot, or the delay slot of a branch or call (R283): not of GATE, GRET or ERET, whose change
comes after the slot. -/
def PlainSlot (e : Engine) : Prop := ∀ sl, e.slot = some sl → sl.change = .none

/-- Where an engine goes after an instruction of `n` bytes: on, or to the destination of the branch whose slot it is
(R284, R287). -/
def nextPc (e : Engine) (n : Nat) : Word :=
  match e.slot with
  | some sl => sl.dest.getD (e.arch.pc + BitVec.ofNat 32 n)
  | none => e.arch.pc + BitVec.ofNat 32 n

/-- The top data cells are `d` and the top return cells `r`, top first: they lie within the stack limits (R349), are cached
(R355), ready (R320) and not poisoned (R356); and the `md` data and `mr` return cells that replace them fit below the
limits and leave the headroom (R349, R352). -/
structure Tops (b : Bank) (d r : List Word) (md mr : Nat) : Prop where
  depthD : d.length ≤ stkDepth b.dsp b.dslim
  depthR : r.length ≤ stkDepth b.rsp b.rslim
  data : vals (b.ds.take d.length) = d
  ret : vals (b.rs.take r.length) = r
  readyD : ∀ c ∈ b.ds.take d.length, c.wait = none ∧ c.poison = false
  readyR : ∀ c ∈ b.rs.take r.length, c.wait = none ∧ c.poison = false
  fitD : d.length < md → spOff b.dsp + 4 * (md - d.length) ≤ limTop b.dslim + 4 ∧ b.ds.length + (md - d.length) ≤ 26
  fitR : r.length < mr → spOff b.rsp + 4 * (mr - r.length) ≤ limTop b.rslim + 4 ∧ b.rs.length + (mr - r.length) ≤ 12

/-- C, V and SAT after an instruction that names them or not (R253): SAT is sticky; every other bit stays. -/
def FlagsAfter (p q : Word) (c v : Option Bool) (sat : Bool) : Prop :=
  ∀ i, i < 32 → q.getLsbD i =
    if i = 0 then c.getD (p.getLsbD 0) else if i = 1 then v.getD (p.getLsbD 1)
    else if i = 2 then p.getLsbD 2 || sat else p.getLsbD i

/-- What an instruction leaves alone in its engine: everything but the program counter, the PSW, the stacks, the
performance counters and settle counts, and the marks of the pipeline. -/
def SameElse (e e' : Engine) : Prop :=
  ∃ (p w : Word) (b : Bank) (pf : List Word) (st : List Settle) (ic : Map (List ILine)) (ln : Option ILine)
    (ms : Option Nat) (sd sr sp dp : Bool) (rs : Nat),
    e' = { e with
      arch := { e.arch with pc := p, psw := w, bank := b, perf := pf, settles := st }
      slot := none, hold := .none, needD := 0, needR := 0, icache := ic, line := ln, missed := ms, spillD := sd, spillR := sr
      stepping := sp, dbgPend := dp, dbgReason := rs }

/-- The stacks after the top `nd` data and `nr` return cells gave way to `d`, waiting for the operation `w` if any, and
`r`: the cells below stay, the pointers move by the net change, the limits stay (R260, R347). -/
structure Stacked (b b' : Bank) (nd nr : Nat) (w : Option Nat) (d r : List Word) : Prop where
  data : b'.ds = newCells w d ++ b.ds.drop nd
  ret : b'.rs = newCells none r ++ b.rs.drop nr
  dsp : b'.dsp = spMove b.dsp ((d.length : Int) - nd)
  rsp : b'.rsp = spMove b.rsp ((r.length : Int) - nr)
  dslim : b'.dslim = b.dslim
  rslim : b'.rslim = b.rslim

/-- The instruction `c` of `n` bytes completes on engine `g`: it pops `nd` data and `nr` return cells, pushes `d` (waiting
for `w`) and `r`, top first, writes the flags named and moves on; the engine is else as `e0`, and nothing else changes: no
other engine, no register, no byte of memory. -/
def RunsAs (c : Instr) (s : State) (g : Nat) (e0 : Engine) (n nd nr : Nat) (w : Option Nat) (d r : List Word)
    (cf vf : Option Bool) (sat : Bool) : Prop :=
  ∃ e', exec c s = .next (s.setEng g e') ∧ SameElse e0 e' ∧ e'.arch.pc = nextPc (s.eng g) n ∧
    Stacked (s.eng g).arch.bank e'.arch.bank nd nr w d r ∧ FlagsAfter (s.eng g).arch.psw e'.arch.psw cf vf sat

/-- `RunsAs` for an instruction that changes nothing of its engine but stacks, flags and program counter. -/
def RunsTo (c : Instr) (s : State) (g n nd nr : Nat) (d r : List Word) (cf vf : Option Bool) (sat : Bool) : Prop :=
  RunsAs c s g (s.eng g) n nd nr none d r cf vf sat

/-- The engine with one more operation in flight, which the result cells wait for (R321). -/
def withFlight (e : Engine) (k : FlightKind) : Engine :=
  { e with flights := e.flights ++ [{ tag := e.nextTag, kind := k, before := e.arch, slot := e.slot }]
           nextTag := e.nextTag + 1 }

/-- `RunsAs` for an instruction of class M whose operation `k` is then in flight, with the engine else as `e0` (R265, R273):
its cells wait for the operation. -/
def RunsMulDiv (c : Instr) (s : State) (g : Nat) (k : FlightKind) (n nd : Nat) (d : List Word) (cf vf : Option Bool)
    (sat : Bool) : Prop :=
  RunsAs c s g (withFlight (s.eng g) k) n nd 0 (some (s.eng g).nextTag) d [] cf vf sat

/-- An instruction of `n` bytes issues on engine `g`, outside the slots of GATE, GRET and ERET, with the data cells `d` and
the return cells `r` at hand and room for `md` and `mr` cells in their place. -/
def Ready (s : State) (g n : Nat) (d r : List Word) (md mr : Nat) : Prop :=
  Issues s g n ∧ PlainSlot (s.eng g) ∧ Tops (s.eng g).arch.bank d r md mr

/-- The multiply-divide unit is free, and the completion tracker has a place (R265, R321). -/
def MulDivFree (e : Engine) (g : Nat) : Prop := e.mdBusy = false ∧ e.flights.length < ctSize g

/-- The running context owns the engine's extended state (R375). -/
def OwnsExt (s : State) (g : Nat) : Prop :=
  s.get (Adr.CAL_ENG (tileOf g) (engOf g)) Bits.CAL_ENG_XOWNV = 1 ∧
    s.get (Adr.CAL_ENG (tileOf g) (engOf g)) Bits.CAL_ENG_XOWN = s.ctxOf g

/-- What a misprediction and a squashed slot leave outside the engine: nothing but the count of open values and, for a bad
word of the control store that the wrong path read, UC_STAT, UC_ERR and UC_CNT of the tile (R339, R499). -/
def WrongPath (s v : State) (g : Nat) : Prop :=
  ∃ r n, v = { s with regs := r, fresh := n } ∧ ∀ a, a ≠ Adr.UC_STAT (tileOf g) → a ≠ Adr.UC_ERR (tileOf g) →
    a ≠ Adr.UC_CNT (tileOf g) → v.reg a = s.reg a

/-- The branch-class instruction `c` of `n` bytes completes on engine `g`, whose delay slot is then to come: the engine goes
to `dest` after the slot (`none`: on behind it) and makes `change` then, and a squash of the slot brings back the state
before the branch (R283, R284, R288). It pops `nd` data and `nr` return cells and pushes the return cells `r`; PSW and
everything but the stacks, the bar count, the branch target buffer, the counters and the traces of the wrong path stay. -/
def BranchesTo (c : Instr) (s : State) (g n nd nr : Nat) (dest : Option Word) (r : List Word) (change : SlotChange)
    (bar : Nat) : Prop :=
  ∃ e' v, exec c s = .next (v.setEng g e') ∧ WrongPath s v g ∧
    SameElse { s.eng g with btb := e'.btb, arch := { (s.eng g).arch with bar := bar } } { e' with slot := none } ∧
    e'.arch.pc = (s.eng g).arch.pc + BitVec.ofNat 32 n ∧ e'.arch.psw = (s.eng g).arch.psw ∧
    e'.slot = some { dest := dest, before := (s.eng g).arch, change := change } ∧
    Stacked (s.eng g).arch.bank e'.arch.bank nd nr none [] r

/-- A branch of `n` bytes issues with its operands at hand, followed by a delay slot of `k` bytes that may stand there
(R287). -/
def BranchReady (s : State) (g n k : Nat) (d r : List Word) (mr : Nat) : Prop :=
  Ready s g n d r 0 mr ∧ (s.eng g).slot = none ∧
    s.slotSeen g (((s.eng g).arch.pc.toNat + n) % 2 ^ 32) = .here k

/-- An instruction raises an exception: it changes nothing but the pending exception of its engine, which goes back to the
boundary of R288, before the branch when the instruction stands in a delay slot; the entry is the next event (R388). -/
def Raises (c : Instr) (s : State) (g : Nat) (x : Exc) : Prop :=
  exec c s = .next (s.setEng g { (s.eng g).rollback with hold := .none, exc := some x })

/-- The illegal-opcode exception of R262, whose address is the instruction's, or its branch's in a delay slot (R288). -/
def illegalAt (e : Engine) : Exc := { code := 1, faddr := e.rollback.arch.pc }

/-- Opcodes that the opcode map leaves undefined (R261). -/
def UndefinedOpcode (op : Byte) : Prop :=
  let k := op.toNat
  (0x5C ≤ k ∧ k ≤ 0x5F) ∨ k = 0x6F ∨ k = 0x7F ∨ (0x93 ≤ k ∧ k ≤ 0x9F) ∨ (0xB6 ≤ k ∧ k ≤ 0xBF) ∨ (0xCA ≤ k ∧ k ≤ 0xCF) ∨
    (0xD7 ≤ k ∧ k ≤ 0xDF) ∨ 0xEE ≤ k

/-- Operand bytes outside the values that their rows define (R250, R262, R267, R269 to R271, R279, R294). -/
def BadOperand (op b : Byte) : Prop :=
  let k := b.toNat
  (op = 0x27 ∧ 16 ≤ k) ∨ ((op = 0x39 ∨ op = 0x3A ∨ op = 0x3B) ∧ 32 ≤ k) ∨ (op = 0x4F ∧ k ≠ 8 ∧ k ≠ 16) ∨
    (op = 0xC4 ∧ 2 ≤ k) ∨ (op = 0xE7 ∧ 64 ≤ k) ∨
    (op = 0xD5 ∧ (k = 0x0F ∨ (0x20 ≤ k ∧ k ≤ 0x3F) ∨ 0x60 ≤ k)) ∨
    (op = 0xD6 ∧ (k = 0x0C ∨ k = 0x0D ∨ k = 0x0F ∨ (0x20 ≤ k ∧ k ≤ 0x3F) ∨ 0x60 ≤ k))

/-- An access of `n` bytes at an engine's address `a` stands at the global address `x` of a memory: the own scratchpad, at
any alignment; or, aligned, the own tile memory or library memory (R26, R300, R679). -/
def MemoryAt (g a n x : Nat) : Prop :=
  (a + n ≤ 0x10000 ∧ x = 0x10000000 + 0x1000000 * (g / 16) + 0x10000 * (g % 16) + a) ∨
  (a % n = 0 ∧ 0x8000000 ≤ a ∧ a < 0x80F8000 ∧ x = 0x10800000 + 0x1000000 * (g / 16) + (a - 0x8000000)) ∨
  (a % n = 0 ∧ 0x20000000 ≤ a ∧ a < 0x20800000 ∧ x = a)

/-- Bytes that read without an error: their memory answers and every word of theirs decodes clean. -/
def Clean (s : State) (x n : Nat) : Prop := s.memErr x = false ∧ ∀ i, i < n → s.codeStat (x + i) = .clean

/-- Memory in its canonical form, with no word in it, and none to come from an armed injection, that holds more flips than
its code is stated to meet (R456, R463). -/
def Sound (s : State) : Prop :=
  Memory.wf s.mem = true ∧ (∀ k, (s.mark k).flips < 3) ∧
    ∀ t, t < 12 → s.get (Adr.TIL_MEMINJCTL t) Bits.TIL_MEMINJCTL_ARM = 1 →
      ((List.range 8).countP (getBit (s.get (Adr.TIL_MEMINJCTL t) Bits.TIL_MEMINJCTL_FLIP))) < 3

/-- The little-endian value of `n` bytes of memory (R4). -/
def memValue (s : State) (x n : Nat) : Nat := leVal (memBytes s.mem x n)

/-- No entry of the store buffer holds a byte of the access (R333). -/
def Unbuffered (e : Engine) (x n : Nat) : Prop := ∀ y ∈ e.sb, y.adr + y.bytes.length ≤ x ∨ x + n ≤ y.adr

/-- The flight of a load: none from the own scratchpad, which is ready at once (R299, R321). -/
def afterLoad (e : Engine) (a : Nat) : Engine :=
  if a < 0x10000 then e else withFlight e (if a < 0x10000000 then .tile else .fabric)
def loadTag (e : Engine) (a : Nat) : Option Nat := if a < 0x10000 then none else some e.nextTag

/-- The completion tracker and the loads beyond EX2 have a place (R321). -/
def LoadRoom (e : Engine) (g : Nat) : Prop :=
  e.flights.length < ctSize g ∧ e.flights.countP Flight.isLoad < maxLoads g

/-- An integer held to the signed numbers of `w` bits, and whether it had to be (R278). -/
def held (w : Nat) (i : Int) : Int := max (-(2 ^ (w - 1) : Int)) (min i (2 ^ (w - 1) - 1))
def outside (w : Nat) (i : Int) : Bool := decide (i < -(2 ^ (w - 1) : Int) ∨ (2 ^ (w - 1) : Int) ≤ i)

/-- One half of the last place added, then toward −∞: `i / 2^k` half upward (R278). -/
def nearest (i : Int) (k : Nat) : Int := (2 * i + 2 ^ k) / 2 ^ (k + 1)

/-- The quotient that a signed divide delivers, and whether a case of R275 applies; the remainder beside it. -/
def quotS (n d : Int) : Int × Bool :=
  if d = 0 then (if 0 ≤ n then 2 ^ 31 - 1 else -(2 ^ 31), true) else (held 32 (n.tdiv d), outside 32 (n.tdiv d))
def remS (n d : Int) (low : Word) : Word :=
  if d = 0 ∨ outside 32 (n.tmod d) then low else BitVec.ofInt 32 (n.tmod d)

/-- The same of an unsigned divide. -/
def quotU (n d : Nat) : Nat × Bool :=
  if d = 0 then (2 ^ 32 - 1, true) else (min (n / d) (2 ^ 32 - 1), decide (2 ^ 32 ≤ n / d))
def remU (n d : Nat) (low : Word) : Word := if d = 0 ∨ 2 ^ 32 ≤ n % d then low else BitVec.ofNat 32 (n % d)

/-! ### Commands from outside the engines -/

/-- A command completes: it leaves a state that is `v` but for registers, and those only at the addresses of `l`, and of
which `P` holds. -/
def Leads (c : Instr) (s v : State) (l : List Nat) (P : State → Prop) : Prop :=
  ∃ u, exec c s = .next u ∧ (∃ r, u = { v with regs := r }) ∧ (∀ a, a ∉ l → u.reg a = s.reg a) ∧ P u

/-- A write of the register at `a` reaches it and is allowed: its target answers (R27, R563, R588, R625), the register's
write rule accepts the initiator, and a tile that it belongs to runs. -/
structure Accepts (s : State) (who : Initiator) (p : RegPerm) (unit idx a : Nat) : Prop where
  answers : s.targetCode who a true = .ok
  granted : grant p who (s.ringOf who) unit idx = .ok
  awake : ∀ t, regTile a = some t → s.sleep t = 0

/-- A read of the register at `a` reaches it: its initiator sends requests (R27, R438), and its target answers. -/
structure Reads (s : State) (who : Initiator) (a : Nat) : Prop where
  sent : s.sends who = true
  answers : s.targetCode who a false = .ok
  awake : ∀ t, regTile a = some t → s.sleep t = 0

/-- An engine that is there to take events: its tile runs, neither is fenced or frozen, and it runs a context. -/
def Serving (s : State) (g : Nat) : Prop := s.inService g = true ∧ s.placed g = true

/-- Words of memory from an address, lowest first. -/
def memWords (s : State) (x n : Nat) : List Word := (List.range n).map (fun i => BitVec.ofNat 32 (memValue s (x + 4 * i) 4))

/-- Memory after bytes were written from `x` on, and nothing else. -/
def Wrote (s t : State) (x : Nat) (bytes : List Byte) : Prop :=
  ∀ c, memRd t.mem c = if x ≤ c ∧ c < x + bytes.length then bytes.getD (c - x) 0 else memRd s.mem c

/-- The bytes of words, the lowest byte first (R4). -/
def wordBytes (l : List Word) : List Byte := l.flatMap (fun w => leBytes 4 w.toNat)

/-- Bytes laid over a memory's bytes from an address on. -/
def laid (f : Nat → Byte) (x : Nat) (l : List Byte) : Nat → Byte :=
  fun c => if x ≤ c ∧ c < x + l.length then l.getD (c - x) 0 else f c

/-- A command by which a context takes an event, and which else leads to `v` (R363): a FREE or LOST context loses it, a
WAITING one becomes READY at the tail, any other one counts it. -/
def TakesEvent (x : Instr) (s v : State) (t c kind src : Nat) : Prop :=
  let st := s.ctxState t c
  let ctl := Adr.CAL_CTX_CTL t c
  let ev := Adr.CAL_CTX_EVENT t c
  let seen := putFld (putFld (s.reg ev) Bits.CAL_CTX_EVENT_KIND kind) Bits.CAL_CTX_EVENT_SRC src
  let n := s.get ev Bits.CAL_CTX_EVENT_EVCNT
  (st = 0 ∨ st = 5 → Leads x s v [Adr.CAL_LOSTEV t, Adr.CAL_STAT t] (fun u =>
    u.get (Adr.CAL_LOSTEV t) Bits.CAL_LOSTEV_COUNT = min 0xFFFF (s.get (Adr.CAL_LOSTEV t) Bits.CAL_LOSTEV_COUNT + 1) ∧
    u.reg (Adr.CAL_STAT t) = putFld (s.reg (Adr.CAL_STAT t)) Bits.CAL_STAT_EVLOST 1)) ∧
  (st = 1 → Leads x s { v with ready := mset s.ready t ((s.readyList t).filter (· != c) ++ [c]) }
    [ctl, ev, Adr.CAL_CTX_READYT t c] (fun u =>
      u.reg ctl = putFld (s.reg ctl) Bits.CAL_CTX_CTL_STATE 2 ∧ u.reg ev = seen ∧
      u.reg (Adr.CAL_CTX_READYT t c) = (s.time.setWidth 32).setWidth 64)) ∧
  (st = 2 ∨ st = 3 ∨ st = 4 → Leads x s v [ev] (fun u => u.reg ev =
    if n = 0xFFFF then putFld seen Bits.CAL_CTX_EVENT_EOVF 1 else putFld seen Bits.CAL_CTX_EVENT_EVCNT (n + 1)))

end Sys2Proof
end

