-- ==== Sys2Proof/Certificates/Slice0/Obligations.lean ====
section
/-!
DEFINITION. The statements for the provers.
-/

open Sys2Proof Sys2Proof.Machine

/-! ### Data instructions -/

/-- R268: each literal pushes its operand, extended as its row says, and changes no flag. -/
def Obligations.LiteralsPush : Prop :=
  ∀ (s : State) (g : Eng),
    (Ready s g 1 [] [] 1 0 → ∀ n : BitVec 5, RunsTo (.slit g n) s g 1 0 0 [BitVec.ofInt 32 n.toInt] [] none none false) ∧
    (Ready s g 2 [] [] 1 0 → ∀ b : BitVec 8,
      RunsTo (.lit8 g b) s g 2 0 0 [BitVec.ofInt 32 b.toInt] [] none none false ∧
      RunsTo (.lit8u g b) s g 2 0 0 [BitVec.ofNat 32 b.toNat] [] none none false) ∧
    (Ready s g 3 [] [] 1 0 → ∀ h : BitVec 16,
      RunsTo (.lit16 g h) s g 3 0 0 [BitVec.ofInt 32 h.toInt] [] none none false ∧
      RunsTo (.lit16u g h) s g 3 0 0 [BitVec.ofNat 32 h.toNat] [] none none false) ∧
    (Ready s g 5 [] [] 1 0 → ∀ w : Word, RunsTo (.lit32 g w) s g 5 0 0 [w] [] none none false)

/-- R267: the stack instructions move cells as their Stack column says (the lists here are top first) and change no
flag; PICK k with k above 15 raises illegal opcode. -/
def Obligations.StackInstructionsMoveCells : Prop :=
  ∀ (s : State) (g : Eng) (a b c d : Word),
    (Ready s g 1 [a] [] 2 0 → RunsTo (.dup g) s g 1 1 0 [a, a] [] none none false) ∧
    (Ready s g 1 [a] [] 0 0 → RunsTo (.drop g) s g 1 1 0 [] [] none none false) ∧
    (Ready s g 1 [b, a] [] 2 0 → RunsTo (.swap g) s g 1 2 0 [a, b] [] none none false) ∧
    (Ready s g 1 [b, a] [] 3 0 → RunsTo (.over g) s g 1 2 0 [a, b, a] [] none none false) ∧
    (Ready s g 1 [c, b, a] [] 3 0 → RunsTo (.rot g) s g 1 3 0 [a, c, b] [] none none false) ∧
    (Ready s g 1 [b, a] [] 1 0 → RunsTo (.nip g) s g 1 2 0 [b] [] none none false) ∧
    (Ready s g 1 [b, a] [] 3 0 → RunsTo (.tuck g) s g 1 2 0 [b, a, b] [] none none false) ∧
    (∀ (k : BitVec 8) (l : List Word), l.length = k.toNat → k.toNat < 16 → Ready s g 2 (l ++ [a]) [] (k.toNat + 2) 0 →
      RunsTo (.pick g k) s g 2 (k.toNat + 1) 0 (a :: l ++ [a]) [] none none false) ∧
    (∀ k : BitVec 8, 16 ≤ k.toNat → Issues s g 2 → (s.eng g).flights = [] →
      Raises (.pick g k) s g (illegalAt (s.eng g))) ∧
    (Ready s g 1 [b, a] [] 4 0 → RunsTo (.twoDup g) s g 1 2 0 [b, a, b, a] [] none none false) ∧
    (Ready s g 1 [b, a] [] 0 0 → RunsTo (.twoDrop g) s g 1 2 0 [] [] none none false) ∧
    (Ready s g 1 [d, c, b, a] [] 4 0 → RunsTo (.twoSwap g) s g 1 4 0 [b, a, d, c] [] none none false) ∧
    (Ready s g 1 [d, c, b, a] [] 6 0 → RunsTo (.twoOver g) s g 1 4 0 [b, a, d, c, b, a] [] none none false) ∧
    (Ready s g 1 [a] [] 0 1 → RunsTo (.toR g) s g 1 1 0 [] [a] none none false) ∧
    (Ready s g 1 [] [a] 1 0 → RunsTo (.rFrom g) s g 1 0 1 [a] [] none none false) ∧
    (Ready s g 1 [] [a] 1 1 → RunsTo (.rFetch g) s g 1 0 1 [a] [a] none none false) ∧
    (Ready s g 1 [] [a] 0 0 → RunsTo (.rdrop g) s g 1 0 1 [] [] none none false)

/-- R269: the logical instructions, the rotates and the bit counts, which change no flag. -/
def Obligations.LogicalInstructions : Prop :=
  ∀ (s : State) (g : Eng) (a b : Word),
    (Ready s g 1 [b, a] [] 1 0 →
      RunsTo (.and g) s g 1 2 0 [a &&& b] [] none none false ∧
      RunsTo (.or g) s g 1 2 0 [a ||| b] [] none none false ∧
      RunsTo (.xor g) s g 1 2 0 [a ^^^ b] [] none none false ∧
      (∃ r : Word, RunsTo (.rol g) s g 1 2 0 [r] [] none none false ∧
        ∀ i, i < 32 → r.getLsbD ((i + b.toNat) % 32) = a.getLsbD i) ∧
      (∃ r : Word, RunsTo (.ror g) s g 1 2 0 [r] [] none none false ∧
        ∀ i, i < 32 → r.getLsbD i = a.getLsbD ((i + b.toNat) % 32))) ∧
    (Ready s g 1 [a] [] 1 0 →
      RunsTo (.not g) s g 1 1 0 [~~~a] [] none none false ∧
      (∃ n, n ≤ 32 ∧ RunsTo (.clz g) s g 1 1 0 [BitVec.ofNat 32 n] [] none none false ∧
        (∀ i, 32 - n ≤ i → a.getLsbD i = false) ∧ (n < 32 → a.getLsbD (31 - n) = true)) ∧
      RunsTo (.popc g) s g 1 1 0 [BitVec.ofNat 32 ((List.range 32).countP a.getLsbD)] [] none none false ∧
      (∃ r : Word, RunsTo (.bswap g) s g 1 1 0 [r] [] none none false ∧
        ∀ i, i < 4 → r.extractLsb' (8 * i) 8 = a.extractLsb' (24 - 8 * i) 8) ∧
      (∃ r : Word, RunsTo (.brev g) s g 1 1 0 [r] [] none none false ∧
        ∀ i, i < 32 → r.getLsbD i = a.getLsbD (31 - i)))

/-- R270: the shifts, their counts and their C, and the second bytes that raise illegal opcode. -/
def Obligations.ShiftsAndTheirCarry : Prop :=
  ∀ (s : State) (g : Eng) (a n : Word),
    (Ready s g 1 [n, a] [] 1 0 →
      let k := (n.setWidth 6).toNat
      (k = 0 → RunsTo (.shl g) s g 1 2 0 [a] [] (some false) none false ∧
        RunsTo (.shr g) s g 1 2 0 [a] [] (some false) none false ∧
        RunsTo (.sar g) s g 1 2 0 [a] [] (some false) none false) ∧
      (1 ≤ k → k < 32 → RunsTo (.shl g) s g 1 2 0 [a <<< k] [] (some (a.getLsbD (32 - k))) none false ∧
        RunsTo (.shr g) s g 1 2 0 [a >>> k] [] (some (a.getLsbD (k - 1))) none false ∧
        RunsTo (.sar g) s g 1 2 0 [a.sshiftRight k] [] (some (a.getLsbD (k - 1))) none false) ∧
      (32 ≤ k → RunsTo (.shl g) s g 1 2 0 [0] [] (some false) none false ∧
        RunsTo (.shr g) s g 1 2 0 [0] [] (some false) none false ∧
        RunsTo (.sar g) s g 1 2 0 [if a.getLsbD 31 then 0xFFFFFFFF else 0] [] (some (a.getLsbD 31)) none false)) ∧
    (∀ k : BitVec 8,
      (Ready s g 2 [a] [] 1 0 →
        (k.toNat = 0 → RunsTo (.shli g k) s g 2 1 0 [a] [] (some false) none false ∧
          RunsTo (.shri g k) s g 2 1 0 [a] [] (some false) none false ∧
          RunsTo (.sari g k) s g 2 1 0 [a] [] (some false) none false) ∧
        (1 ≤ k.toNat → k.toNat < 32 →
          RunsTo (.shli g k) s g 2 1 0 [a <<< k.toNat] [] (some (a.getLsbD (32 - k.toNat))) none false ∧
          RunsTo (.shri g k) s g 2 1 0 [a >>> k.toNat] [] (some (a.getLsbD (k.toNat - 1))) none false ∧
          RunsTo (.sari g k) s g 2 1 0 [a.sshiftRight k.toNat] [] (some (a.getLsbD (k.toNat - 1))) none false)) ∧
      (Issues s g 2 → (s.eng g).flights = [] → 32 ≤ k.toNat →
        Raises (.shli g k) s g (illegalAt (s.eng g)) ∧ Raises (.shri g k) s g (illegalAt (s.eng g)) ∧
        Raises (.sari g k) s g (illegalAt (s.eng g))))

/-- R253, R271, R272: sums and differences wrap; C is the carry or the borrow, V says that the signed result differs
from the exact one; ABS writes V alone; CLC, SETC and GETC. -/
def Obligations.AddAndSubtractFlags : Prop :=
  ∀ (s : State) (g : Eng) (a b : Word),
    (Ready s g 1 [b, a] [] 1 0 →
      let ci : Nat := if (s.eng g).arch.psw.getLsbD 0 then 1 else 0
      let cw : Word := BitVec.ofNat 32 ci
      RunsTo (.add g) s g 1 2 0 [a + b] [] (some (decide (2 ^ 32 ≤ a.toNat + b.toNat)))
        (some (decide ((a + b).toInt ≠ a.toInt + b.toInt))) false ∧
      RunsTo (.sub g) s g 1 2 0 [a - b] [] (some (decide (a.toNat < b.toNat)))
        (some (decide ((a - b).toInt ≠ a.toInt - b.toInt))) false ∧
      RunsTo (.adc g) s g 1 2 0 [a + b + cw] [] (some (decide (2 ^ 32 ≤ a.toNat + b.toNat + ci)))
        (some (decide ((a + b + cw).toInt ≠ a.toInt + b.toInt + ci))) false ∧
      RunsTo (.sbb g) s g 1 2 0 [a - b - cw] [] (some (decide (a.toNat < b.toNat + ci)))
        (some (decide ((a - b - cw).toInt ≠ a.toInt - b.toInt - ci))) false) ∧
    (Ready s g 1 [a] [] 1 0 →
      RunsTo (.neg g) s g 1 1 0 [0 - a] [] (some (decide (0 < a.toNat))) (some (decide (a = 0x80000000))) false ∧
      RunsTo (.abs g) s g 1 1 0 [BitVec.ofInt 32 a.toInt.natAbs] [] none (some (decide (a = 0x80000000))) false ∧
      RunsTo (.inc g) s g 1 1 0 [a + 1] [] (some (decide (a = 0xFFFFFFFF))) (some (decide (a = 0x7FFFFFFF))) false ∧
      RunsTo (.dec g) s g 1 1 0 [a - 1] [] (some (decide (a = 0))) (some (decide (a = 0x80000000))) false) ∧
    (Ready s g 2 [a] [] 1 0 → ∀ k : BitVec 8,
      let w : Word := BitVec.ofInt 32 k.toInt
      RunsTo (.addi g k) s g 2 1 0 [a + w] [] (some (decide (2 ^ 32 ≤ a.toNat + w.toNat)))
        (some (decide ((a + w).toInt ≠ a.toInt + k.toInt))) false) ∧
    (Ready s g 1 [] [] 0 0 → RunsTo (.clc g) s g 1 0 0 [] [] (some false) none false ∧
      RunsTo (.setc g) s g 1 0 0 [] [] (some true) none false) ∧
    (Ready s g 1 [] [] 1 0 →
      RunsTo (.getc g) s g 1 0 0 [if (s.eng g).arch.psw.getLsbD 0 then 1 else 0] [] none none false)

/-- R258, R271: the smaller and the larger, the comparisons with their flag cells, and SEXT with the operand bytes
that raise illegal opcode. -/
def Obligations.ComparisonsAndFlagCells : Prop :=
  ∀ (s : State) (g : Eng) (a b : Word),
    (Ready s g 1 [b, a] [] 1 0 →
      RunsTo (.min g) s g 1 2 0 [BitVec.ofInt 32 (min a.toInt b.toInt)] [] none none false ∧
      RunsTo (.max g) s g 1 2 0 [BitVec.ofInt 32 (max a.toInt b.toInt)] [] none none false ∧
      RunsTo (.umin g) s g 1 2 0 [BitVec.ofNat 32 (min a.toNat b.toNat)] [] none none false ∧
      RunsTo (.umax g) s g 1 2 0 [BitVec.ofNat 32 (max a.toNat b.toNat)] [] none none false ∧
      RunsTo (.eq g) s g 1 2 0 [if a = b then 0xFFFFFFFF else 0] [] none none false ∧
      RunsTo (.lt g) s g 1 2 0 [if a.toInt < b.toInt then 0xFFFFFFFF else 0] [] none none false ∧
      RunsTo (.ult g) s g 1 2 0 [if a.toNat < b.toNat then 0xFFFFFFFF else 0] [] none none false) ∧
    (Ready s g 1 [a] [] 1 0 →
      RunsTo (.zeq g) s g 1 1 0 [if a = 0 then 0xFFFFFFFF else 0] [] none none false) ∧
    (Ready s g 2 [a] [] 1 0 →
      RunsTo (.sext g 8) s g 2 1 0 [BitVec.ofInt 32 (a.setWidth 8).toInt] [] none none false ∧
      RunsTo (.sext g 16) s g 2 1 0 [BitVec.ofInt 32 (a.setWidth 16).toInt] [] none none false) ∧
    (∀ k : BitVec 8, Issues s g 2 → (s.eng g).flights = [] → k.toNat ≠ 8 → k.toNat ≠ 16 →
      Raises (.sext g k) s g (illegalAt (s.eng g)))

/-- R259, R272: the double-cell instructions; a double cell lies with its high cell on top. -/
def Obligations.DoubleCellInstructions : Prop :=
  ∀ (s : State) (g : Eng) (lo hi lo2 hi2 n a : Word),
    let x : DWord := hi ++ lo
    let y : DWord := hi2 ++ lo2
    let top (d : DWord) : List Word := [d.extractLsb' 32 32, d.extractLsb' 0 32]
    (Ready s g 1 [hi2, lo2, hi, lo] [] 2 0 →
      RunsTo (.dadd g) s g 1 4 0 (top (x + y)) [] (some (decide (2 ^ 64 ≤ x.toNat + y.toNat)))
        (some (decide ((x + y).toInt ≠ x.toInt + y.toInt))) false ∧
      RunsTo (.dsub g) s g 1 4 0 (top (x - y)) [] (some (decide (x.toNat < y.toNat)))
        (some (decide ((x - y).toInt ≠ x.toInt - y.toInt))) false) ∧
    (Ready s g 1 [hi2, lo2, hi, lo] [] 1 0 →
      RunsTo (.dlt g) s g 1 4 0 [if x.toInt < y.toInt then 0xFFFFFFFF else 0] [] none none false ∧
      RunsTo (.dult g) s g 1 4 0 [if x.toNat < y.toNat then 0xFFFFFFFF else 0] [] none none false) ∧
    (Ready s g 1 [hi, lo] [] 2 0 →
      RunsTo (.dneg g) s g 1 2 0 (top (0 - x)) [] (some (decide (0 < x.toNat)))
        (some (decide (x.toInt = -(2 ^ 63)))) false) ∧
    (Ready s g 1 [n, hi, lo] [] 2 0 →
      let k := (n.setWidth 6).toNat
      RunsTo (.dshl g) s g 1 3 0 (top (x <<< k)) [] (some (k ≠ 0 && x.getLsbD (64 - k))) none false ∧
      RunsTo (.dshr g) s g 1 3 0 (top (x >>> k)) [] (some (k ≠ 0 && x.getLsbD (k - 1))) none false ∧
      RunsTo (.dsar g) s g 1 3 0 (top (x.sshiftRight k)) [] (some (k ≠ 0 && x.getLsbD (k - 1))) none false) ∧
    (Ready s g 1 [a] [] 2 0 → RunsTo (.sToD g) s g 1 1 0 (top (BitVec.ofInt 64 a.toInt)) [] none none false) ∧
    (Ready s g 1 [hi, lo] [] 1 0 →
      RunsTo (.dToS g) s g 1 2 0 [BitVec.ofInt 32 (held 32 x.toInt)] [] none none (outside 32 x.toInt))

/-- R265, R273, R277, R278: the multiplies, whose result cells wait for the multiply-divide unit. Model's choices it
rests on: log entry 9. -/
def Obligations.MultipliesWaitForTheirUnit : Prop :=
  ∀ (s : State) (g : Eng) (a b : Word), MulDivFree (s.eng g) g →
    let p := a.toInt * b.toInt
    let q := (a.setWidth 16).toInt * (b.setWidth 16).toInt
    let top (d : DWord) : List Word := [d.extractLsb' 32 32, d.extractLsb' 0 32]
    let fix (w : Nat) (c : Instr) (e r : Int) : Prop :=
      RunsMulDiv c s g .mul 1 2 [BitVec.ofInt 32 (held w r)] none (some (decide (e ≠ 0 ∧ held w r = 0))) (outside w r)
    (Ready s g 1 [b, a] [] 1 0 →
      RunsMulDiv (.mul g) s g .mul 1 2 [BitVec.ofInt 32 p] none (some (outside 32 p)) false ∧
      RunsMulDiv (.umul g) s g .mul 1 2 [BitVec.ofNat 32 (a.toNat * b.toNat)] (some (decide (2 ^ 32 ≤ a.toNat * b.toNat)))
        none false ∧
      fix 16 (.qmul g) q (q / 2 ^ 15) ∧ fix 16 (.qmulr g) q (nearest q 15) ∧
      fix 32 (.qmull g) p (p / 2 ^ 31) ∧ fix 32 (.qmullr g) p (nearest p 31)) ∧
    (Ready s g 1 [b, a] [] 2 0 →
      RunsMulDiv (.mulw g) s g .mul 1 2 (top (BitVec.ofInt 64 p)) none none false ∧
      RunsMulDiv (.umulw g) s g .mul 1 2 (top (BitVec.ofNat 64 (a.toNat * b.toNat))) none none false)

/-- R273, R275: the divides, with every case of a zero divisor and of a quotient outside its format; none of them
raises an exception for its operands. Model's choices it rests on: log entries 9 and 51. -/
def Obligations.DividesAndTheirLimits : Prop :=
  ∀ (s : State) (g : Eng) (a b hi : Word), MulDivFree (s.eng g) g →
    let x : DWord := hi ++ a
    let sq := quotS a.toInt b.toInt
    let uq := quotU a.toNat b.toNat
    let wq := quotS x.toInt b.toInt
    let vq := quotU x.toNat b.toNat
    (Ready s g 1 [b, a] [] 1 0 →
      RunsMulDiv (.div g) s g .div 1 2 [BitVec.ofInt 32 sq.1] none (some sq.2) sq.2 ∧
      RunsMulDiv (.udiv g) s g .div 1 2 [BitVec.ofNat 32 uq.1] none (some uq.2) uq.2 ∧
      RunsMulDiv (.mod g) s g .div 1 2 [remS a.toInt b.toInt a] none (some (decide (b = 0))) false ∧
      RunsMulDiv (.umod g) s g .div 1 2 [remU a.toNat b.toNat a] none (some (decide (b = 0))) false) ∧
    (Ready s g 1 [b, a] [] 2 0 →
      RunsMulDiv (.divmod g) s g .div 1 2 [BitVec.ofInt 32 sq.1, remS a.toInt b.toInt a] none (some sq.2) sq.2 ∧
      RunsMulDiv (.udivmod g) s g .div 1 2 [BitVec.ofNat 32 uq.1, remU a.toNat b.toNat a] none (some uq.2) uq.2) ∧
    (Ready s g 1 [b, hi, a] [] 2 0 →
      RunsMulDiv (.divw g) s g .div 1 3 [BitVec.ofInt 32 wq.1, remS x.toInt b.toInt a] none (some wq.2) wq.2 ∧
      RunsMulDiv (.udivw g) s g .div 1 3 [BitVec.ofNat 32 vq.1, remU x.toNat b.toNat a] none (some vq.2) vq.2)

/-- R277, R278: the fixed-point instructions of one cycle, exact, rounded and clamped. -/
def Obligations.FixedPointInstructions : Prop :=
  ∀ (s : State) (g : Eng) (a b : Word),
    let p := (a.setWidth 16).toInt
    let q := (b.setWidth 16).toInt
    let gives (w : Nat) (c : Instr) (n : Nat) (r : Int) : Prop :=
      RunsTo c s g 1 n 0 [BitVec.ofInt 32 (held w r)] [] none none (outside w r)
    (Ready s g 1 [b, a] [] 1 0 →
      gives 16 (.qadd g) 2 (p + q) ∧ gives 16 (.qsub g) 2 (p - q) ∧
      gives 32 (.qaddl g) 2 (a.toInt + b.toInt) ∧ gives 32 (.qsubl g) 2 (a.toInt - b.toInt) ∧
      gives 32 (.qshl g) 2 (a.toInt * 2 ^ (b.toNat % 32)) ∧
      RunsTo (.qrshr g) s g 1 2 0 [BitVec.ofInt 32 (nearest a.toInt (b.toNat % 32))] [] none
        (some (decide (a ≠ 0 ∧ nearest a.toInt (b.toNat % 32) = 0))) false) ∧
    (Ready s g 1 [a] [] 1 0 →
      gives 16 (.qneg g) 1 (-p) ∧ gives 16 (.qabs g) 1 p.natAbs ∧ gives 32 (.qnegl g) 1 (-a.toInt) ∧
      gives 32 (.qabsl g) 1 a.toInt.natAbs ∧ gives 16 (.sath g) 1 a.toInt)

/-- R279: the accumulator instructions in a context that owns its extended state: ACC, the cells, SAT and V, and the
operand bytes of ACCQ that raise illegal opcode. Model's choices it rests on: log entry 9. -/
def Obligations.AccumulatorInstructions : Prop :=
  ∀ (s : State) (g : Eng) (a b : Word), MulDivFree (s.eng g) g → OwnsExt s g →
    let acc := (s.eng g).arch.ext.acc
    let on (c : Instr) (n nd : Nat) (acc' : DWord) (d : List Word) (v : Option Bool) (sat : Bool) : Prop :=
      RunsAs c s g { withFlight (s.eng g) .mul with
        arch := { (s.eng g).arch with ext := { (s.eng g).arch.ext with acc := acc' } } } n nd 0
        (some (s.eng g).nextTag) d [] none v sat
    let sum (i : Int) (c : Instr) : Prop := on c 1 2 (BitVec.ofInt 64 (held 64 i)) [] none (outside 64 i)
    (Ready s g 1 [] [] 0 0 → on (.aclr g) 1 0 0 [] none false) ∧
    (Ready s g 1 [b, a] [] 0 0 →
      sum (acc.toInt + a.toInt * b.toInt) (.mac g) ∧ sum (acc.toInt - a.toInt * b.toInt) (.msu g) ∧
      sum (acc.toInt + (a.setWidth 16).toInt * (b.setWidth 16).toInt) (.qmac g) ∧
      on (.umac g) 1 2 (BitVec.ofNat 64 (min (acc.toNat + a.toNat * b.toNat) (2 ^ 64 - 1))) [] none
        (decide (2 ^ 64 ≤ acc.toNat + a.toNat * b.toNat)) ∧
      on (.accset g) 1 2 (b ++ a) [] none false) ∧
    (Ready s g 1 [] [] 2 0 → on (.accget g) 1 0 acc [acc.extractLsb' 32 32, acc.extractLsb' 0 32] none false) ∧
    (∀ k : BitVec 8,
      (k.toNat < 64 → Ready s g 2 [] [] 1 0 →
        let r := nearest acc.toInt k.toNat
        on (.accq g k) 2 0 acc [BitVec.ofInt 32 (held 32 r)] (some (decide (acc ≠ 0 ∧ held 32 r = 0))) (outside 32 r)) ∧
      (64 ≤ k.toNat → Issues s g 2 → (s.eng g).flights = [] → Raises (.accq g k) s g (illegalAt (s.eng g))))

/-! ### Special registers -/

/-- R249, R280: RDSR pushes the register of its number in every ring that may read it. -/
def Obligations.ReadSpecialRegisters : Prop :=
  ∀ (s : State) (g : Eng), Ready s g 2 [] [] 1 0 → (s.eng g).flights = [] →
    let e := s.eng g
    let a := e.arch
    let gives (n : BitVec 8) (v : Word) : Prop := RunsTo (.rdsr g n) s g 2 0 0 [v] [] none none false
    gives 0x00 (s.psw g) ∧ gives 0x01 a.bank.dsp ∧ gives 0x02 a.bank.rsp ∧ gives 0x03 a.bank.dslim ∧
    gives 0x04 a.bank.rslim ∧ (e.effRing = 0 → gives 0x05 a.tsbp) ∧
    (OwnsExt s g → gives 0x06 (BitVec.ofNat 32 a.ext.vl) ∧ gives 0x07 (a.ext.acc.extractLsb' 0 32) ∧
      gives 0x08 (a.ext.acc.extractLsb' 32 32) ∧ gives 0x09 a.ext.tkt0 ∧ gives 0x0A a.ext.tkt1 ∧ gives 0x0B a.ext.wsum) ∧
    gives 0x0C (BitVec.ofNat 32 (s.ctxn g)) ∧
    gives 0x0D (BitVec.ofNat 32 (g.val % 16 * 2 ^ 12 + g.val / 16 * 2 ^ 8 + g.val)) ∧ gives 0x0E a.remotePc ∧
    (e.effRing = 0 → ∀ i, i < 16 → gives (BitVec.ofNat 8 (0x10 + i)) (a.pr.getD i 0)) ∧
    (∀ i, i < 22 → gives (BitVec.ofNat 8 (0x40 + i)) (a.perf.getD i 0)) ∧ gives 0x5F a.perfCtl

/-- R249, R252, R280, R348: WRSR of each register that it may write, outside a delay slot: PSW in ring 0 and in rings
1 to 3, the pointers with their cached cells spilled, the limits, TSBP, the extended state in a context that owns it,
REMOTE_PC, the protection regions, the counters and PC_CTL; and the pointers and limits that raise stack limit. -/
def Obligations.WriteSpecialRegisters : Prop :=
  ∀ (s : State) (g : Eng) (v : Word), Ready s g 2 [v] [] 0 0 → (s.eng g).flights = [] → (s.eng g).slot = none →
    let e := s.eng g
    let b := e.arch.bank
    let x := e.arch.ext
    let zero : Prop := e.effRing = 0
    let sets (n : BitVec 8) (a : Arch) : Prop := RunsAs (.wrsr g n) s g { e with arch := a } 2 1 0 none [] [] none none false
    let leaves (n : BitVec 8) (P : State → Arch → Prop) : Prop :=
      ∃ u, exec (.wrsr g n) s = .next u ∧ P u (u.eng g).arch ∧ (u.eng g).arch.pc = e.arch.pc + 2 ∧ (u.eng g).arch.ext = x ∧
        ∀ h, h ≠ g.val → u.eng h = s.eng h
    let popped : Word := spMove b.dsp (-1)
    let bad (n : BitVec 8) (w : Word) : Prop := Raises (.wrsr g n) s g { code := 7, detail := 4, faddr := w }
    let ptr := v &&& 0xFFFFFFFC
    let rest := b.ds.drop 1
    (zero → leaves 0x00 (fun _ a =>
      (∀ i ∈ [0, 1, 2, 16, 17], a.psw.getLsbD i = v.getLsbD i) ∧ (s.mode = modeRun → a.psw.getLsbD 31 = false) ∧
      (s.mode ≠ modeRun → a.psw.getLsbD 31 = v.getLsbD 31) ∧
      pswGet a.psw Bits.PSW_IPL = (if e.nd = 0 then pswGet v Bits.PSW_IPL else max 1 (pswGet v Bits.PSW_IPL)) ∧
      (∀ i ∈ List.range 32, ¬ (i ∈ [0, 1, 2, 16, 17, 24, 25, 26, 31]) → a.psw.getLsbD i = false) ∧
      Stacked b a.bank 1 0 none [] [])) ∧
    (1 ≤ e.effRing → v &&& 0x87030000 = s.psw g &&& 0x87030000 → leaves 0x00 (fun _ a =>
      (∀ i ∈ List.range 32, a.psw.getLsbD i = (if i < 3 then v else e.arch.psw).getLsbD i) ∧
      Stacked b a.bank 1 0 none [] [])) ∧
    (zero → Sound s → areaOk ptr = true → ptrIn ptr b.dslim = true → (∀ c ∈ rest, c.wait = none ∧ c.poison = false) →
      let deep := stkAdr g (spMove popped (-(rest.length : Int)))
      leaves 0x01 (fun u a => a.bank = { b with dsp := ptr, ds := [] } ∧ a.psw = e.arch.psw ∧
        Wrote s u deep (wordBytes (vals rest.reverse)))) ∧
    (zero → Sound s → areaOk ptr = true → ptrIn ptr b.rslim = true → (∀ c ∈ b.rs, c.wait = none ∧ c.poison = false) →
      let deep := stkAdr g (spMove b.rsp (-(b.rs.length : Int)))
      leaves 0x02 (fun u a => a.bank = { b with dsp := popped, ds := rest, rsp := ptr, rs := [] } ∧ a.psw = e.arch.psw ∧
        Wrote s u deep (wordBytes (vals b.rs.reverse)))) ∧
    (zero → limOk v = true → ptrIn popped v = true → leaves 0x03 (fun u a => u.mem = s.mem ∧ a.psw = e.arch.psw ∧
      a.bank = { b with dsp := popped, ds := rest, dslim := v })) ∧
    (zero → limOk v = true → ptrIn b.rsp v = true → leaves 0x04 (fun u a => u.mem = s.mem ∧ a.psw = e.arch.psw ∧
      a.bank = { b with dsp := popped, ds := rest, rslim := v })) ∧
    (zero → sets 0x05 { e.arch with tsbp := v &&& 0xFFFFFFC7 }) ∧
    (OwnsExt s g → sets 0x06 { e.arch with ext := { x with vl := min v.toNat 1024 } } ∧
      sets 0x07 { e.arch with ext := { x with acc := x.acc.extractLsb' 32 32 ++ v } } ∧
      sets 0x08 { e.arch with ext := { x with acc := v ++ x.acc.extractLsb' 0 32 } }) ∧
    (OwnsExt s g → zero → sets 0x09 { e.arch with ext := { x with tkt0 := v } } ∧
      sets 0x0A { e.arch with ext := { x with tkt1 := v } } ∧ sets 0x0B { e.arch with ext := { x with wsum := v } }) ∧
    (e.effRing ≤ 1 → sets 0x0E { e.arch with remotePc := v &&& 0xE0000FFF }) ∧
    (zero → ∀ i ∈ List.range 16, sets (BitVec.ofNat 8 (0x10 + i))
      { e.arch with pr := setAt e.arch.pr i (if i % 2 = 0 then v &&& 0xFFFFFFC0 else v) }) ∧
    (zero → ∀ i ∈ List.range 22, leaves (BitVec.ofNat 8 (0x40 + i)) (fun u a => u.mem = s.mem ∧ a.psw = e.arch.psw ∧
      a.perf.getD i 0 = v ∧ Stacked b a.bank 1 0 none [] [])) ∧
    (zero → leaves 0x5F (fun u a => u.mem = s.mem ∧ a.psw = e.arch.psw ∧ a.perfCtl = v &&& 0x10F ∧
      (v.getLsbD 4 = true → a.perf = List.replicate 22 0) ∧ Stacked b a.bank 1 0 none [] [])) ∧
    (zero → (areaOk ptr = false ∨ ptrIn ptr b.dslim = false → bad 0x01 ptr) ∧
      (areaOk ptr = false ∨ ptrIn ptr b.rslim = false → bad 0x02 ptr) ∧
      (limOk v = false ∨ ptrIn popped v = false → bad 0x03 v) ∧ (limOk v = false ∨ ptrIn b.rsp v = false → bad 0x04 v))

/-- R250, R252: the reads and writes of special registers that are refused: illegal opcode for a number that is not
listed or not written, privilege for a ring outside the table and for a PSW write of rings 1 to 3 that would change
GM, IPL or RING; stack and register stay. -/
def Obligations.SpecialRegisterRefusals : Prop :=
  ∀ (s : State) (g : Eng) (n : BitVec 8), Issues s g 2 → (s.eng g).flights = [] →
    let k := n.toNat
    let priv : Exc := { code := 5 }
    (k = 0x0F ∨ (0x20 ≤ k ∧ k ≤ 0x3F) ∨ (0x60 ≤ k) → Raises (.rdsr g n) s g (illegalAt (s.eng g))) ∧
    (k = 0x0C ∨ k = 0x0D ∨ k = 0x0F ∨ (0x20 ≤ k ∧ k ≤ 0x3F) ∨ (0x60 ≤ k) →
      Raises (.wrsr g n) s g (illegalAt (s.eng g))) ∧
    (1 ≤ (s.eng g).effRing → k = 5 ∨ (0x10 ≤ k ∧ k ≤ 0x1F) → Raises (.rdsr g n) s g priv) ∧
    (1 ≤ (s.eng g).effRing →
      (1 ≤ k ∧ k ≤ 5) ∨ (9 ≤ k ∧ k ≤ 0x0B) ∨ (0x10 ≤ k ∧ k ≤ 0x1F) ∨ (0x40 ≤ k ∧ k ≤ 0x5F) →
      Raises (.wrsr g n) s g priv) ∧
    (2 ≤ (s.eng g).effRing → k = 0x0E → Raises (.wrsr g n) s g priv) ∧
    (∀ v : Word, 1 ≤ (s.eng g).effRing → Tops (s.eng g).arch.bank [v] [] 0 0 → k = 0 →
      v &&& 0x87030000 ≠ s.psw g &&& 0x87030000 → Raises (.wrsr g n) s g priv)

/-! ### Branches -/

/-- R284, R285, R287, R288: BRA, CALL, RET, JMPI and CALLI: the destination, the return address behind the delay slot,
and the slot to come. -/
def Obligations.JumpsCallsAndReturns : Prop :=
  ∀ (s : State) (g : Eng) (k : Nat) (a : Word),
    let pc := (s.eng g).arch.pc
    let bar := (s.eng g).arch.bar - 1
    let ret (n : Nat) : Word := pc + BitVec.ofNat 32 (n + k)
    (∀ (d : Disp), BranchReady s g (Disp.len d) k [] [] 0 →
      BranchesTo (.bra g d) s g (Disp.len d) 0 0 (some (pc + Disp.val d)) [] .none bar) ∧
    (∀ (d : Disp), BranchReady s g (Disp.len d) k [] [] 1 →
      BranchesTo (.call g d) s g (Disp.len d) 0 0 (some (pc + Disp.val d)) [ret (Disp.len d)] .none bar) ∧
    (BranchReady s g 1 k [] [a] 0 → BranchesTo (.ret g) s g 1 0 1 (some a) [] .none bar) ∧
    (BranchReady s g 1 k [a] [] 0 → BranchesTo (.jmpi g) s g 1 1 0 (some a) [] .none bar) ∧
    (BranchReady s g 1 k [a] [] 1 → BranchesTo (.calli g) s g 1 1 0 (some a) [ret 1] .none bar)

/-- R284, R285: the conditional branches and NEXT: where they go, what becomes of the count, and that an annulled slot
is passed over; NOP. -/
def Obligations.ConditionalBranchesAndNext : Prop :=
  ∀ (s : State) (g : Eng) (k : Nat) (f : Word),
    let e := s.eng g
    let bar := e.arch.bar - 1
    let goes (c : Instr) (n nd nr : Nat) (d : Disp) (taken annul : Bool) (r : List Word) : Prop :=
      (taken = true → BranchesTo c s g n nd nr (some (e.arch.pc + Disp.val d)) r .none bar) ∧
      (taken = false → annul = false → BranchesTo c s g n nd nr none r .none bar) ∧
      (taken = false → annul = true → ∃ e' v, exec c s = .next (v.setEng g e') ∧ WrongPath s v g ∧
        SameElse { e with arch := { e.arch with bar := bar } } e' ∧ e'.arch.pc = nextPc e (n + k) ∧
        e'.arch.psw = e.arch.psw ∧ Stacked e.arch.bank e'.arch.bank nd nr none [] r)
    (∀ d : Disp, BranchReady s g (Disp.len d) k [f] [] 0 →
      goes (.bz g d) (Disp.len d) 1 0 d (f == 0) false [] ∧ goes (.bnz g d) (Disp.len d) 1 0 d (f != 0) false [] ∧
      goes (.bzA g d) (Disp.len d) 1 0 d (f == 0) true [] ∧ goes (.bnzA g d) (Disp.len d) 1 0 d (f != 0) true []) ∧
    (∀ d : BitVec 8, BranchReady s g 2 k [] [f] 1 →
      let left : List Word := if f = 1 then [] else [f - 1]
      goes (.next g d) 2 0 1 (.rel8 d) (f != 1) false left ∧ goes (.nextA g d) 2 0 1 (.rel8 d) (f != 1) true left) ∧
    (Ready s g 1 [] [] 0 0 → RunsTo (.nop g) s g 1 0 0 [] [] none none false)

/-- R287: a branch, call, return, gate or ERET whose delay slot holds a barred instruction, an undefined opcode or an
operand byte outside its values raises illegal opcode itself, taken or not. Model's choices it rests on: log entry 8.
-/
def Obligations.BarredDelaySlots : Prop :=
  ∀ (s : State) (g : Eng) (d : Disp) (b : BitVec 8), (s.eng g).slot = none → (s.eng g).flights = [] →
    let pc := (s.eng g).arch.pc.toNat
    let x : Exc := { code := 1, faddr := (s.eng g).arch.pc }
    let len := Disp.len d
    let barred (o : Byte) : Prop := (0x80 ≤ o.toNat ∧ o.toNat ≤ 0x91) ∨ (0xC0 ≤ o.toNat ∧ o.toNat ≤ 0xC3) ∨
      (0xC8 ≤ o.toNat ∧ o.toNat ≤ 0xCF)
    let bad (n : Nat) : Prop :=
      let a := (pc + n) % 2 ^ 32
      Issues s g n ∧ s.fetchFault g a 1 = none ∧ ∃ o : Byte, s.fetchByte g a = some o ∧
        (barred o ∨ UndefinedOpcode o ∨ (s.fetchFault g a 2 = none ∧ s.atHand g a 2 = true ∧
          ∃ y : Byte, s.fetchByte g ((a + 1) % 2 ^ 32) = some y ∧ BadOperand o y))
    (bad len → Raises (.bra g d) s g x ∧ Raises (.call g d) s g x ∧ Raises (.bz g d) s g x ∧ Raises (.bnz g d) s g x ∧
      Raises (.bzA g d) s g x ∧ Raises (.bnzA g d) s g x) ∧
    (bad 1 → Raises (.ret g) s g x ∧ Raises (.jmpi g) s g x ∧ Raises (.calli g) s g x ∧ Raises (.gret g) s g x ∧
      Raises (.eret g) s g x) ∧
    (bad 2 → Raises (.next g b) s g x ∧ Raises (.nextA g b) s g x ∧ Raises (.gate g b) s g x)

/-- R262: an undefined opcode, or an operand byte outside the values of its row, raises illegal opcode at its own
address (R288: in a delay slot at the branch's), and nothing else changes. Model's choices it rests on: log entry 8.
-/
def Obligations.IllegalOpcodeRaises : Prop :=
  ∀ (s : State) (g : Eng) (op b : Byte) (l : List Byte), (s.eng g).flights = [] →
    (UndefinedOpcode op → Issues s g (min 5 (l.length + 1)) →
      Raises (.illegalOpcode g (op :: l)) s g (illegalAt (s.eng g))) ∧
    (BadOperand op b → Issues s g (min 5 (l.length + 2)) →
      Raises (.illegalOpcode g (op :: b :: l)) s g (illegalAt (s.eng g)))

/-- R384 to R386: GATE and GRET with a delay slot that may stand there: the cells on the return stack, the ring after
the slot, each check that raises gate, and the stack limit. Model's choices it rests on: log entry 8. -/
def Obligations.GatesChangeRing : Prop :=
  ∀ (s : State) (g : Eng) (k : Nat) (n : BitVec 8) (link ret : Word),
    let e := s.eng g
    let bar := e.arch.bar
    let ctl := s.reg (Adr.TIL_GATE_CTL (tileOf g) n.toNat)
    let valid : Prop := fldOf ctl Bits.TIL_GATE_CTL_VALID = 1
    let cmax := fldOf ctl Bits.TIL_GATE_CTL_CMAX
    let ring := fldOf ctl Bits.TIL_GATE_CTL_RING
    let at_ (len : Nat) : Prop := Issues s g len ∧ e.slot = none ∧ e.flights = [] ∧
      s.slotSeen g ((e.arch.pc.toNat + len) % 2 ^ 32) = .here k
    let gate (d : Nat) : Prop := Raises (.gate g n) s g { code := 6, detail := d }
    (valid → e.effRing ≤ cmax → ring ≤ e.effRing → BranchReady s g 2 k [] [] 2 →
      BranchesTo (.gate g n) s g 2 0 0 (some ((s.reg (Adr.TIL_GATE_PC (tileOf g) n.toNat)).setWidth 32))
        [BitVec.ofNat 32 (e.ring * 2 ^ 16), e.arch.pc + BitVec.ofNat 32 (2 + k)] (.ring ring) bar) ∧
    (at_ 2 → (¬ valid → gate 0) ∧ (valid → cmax < e.effRing → gate 1) ∧
      (valid → e.effRing ≤ cmax → e.effRing < ring → gate 2) ∧
      (valid → e.effRing ≤ cmax → ring ≤ e.effRing → limTop e.arch.bank.rslim + 4 < spOff e.arch.bank.rsp + 8 →
        let room := (max (spOff e.arch.bank.rsp) (limTop e.arch.bank.rslim + 4) - spOff e.arch.bank.rsp) / 4
        Raises (.gate g n) s g { code := 7, detail := 2, faddr := spMove e.arch.bank.rsp room })) ∧
    (BranchReady s g 1 k [] [link, ret] 0 → link &&& 0xFFFCFFFF = 0 → e.effRing ≤ (link.extractLsb' 16 2).toNat →
      BranchesTo (.gret g) s g 1 0 2 (some ret) [] (.ring (link.extractLsb' 16 2).toNat) bar) ∧
    (BranchReady s g 1 k [] [link, ret] 0 → e.flights = [] →
      (link &&& 0xFFFCFFFF ≠ 0 → Raises (.gret g) s g { code := 6, detail := 3 }) ∧
      (link &&& 0xFFFCFFFF = 0 → (link.extractLsb' 16 2).toNat < e.effRing →
        Raises (.gret g) s g { code := 6, detail := 4 })) ∧
    (at_ 1 → stkDepth e.arch.bank.rsp e.arch.bank.rslim < 2 → Raises (.gret g) s g
      { code := 7, detail := 3, faddr := cellForm e.arch.bank.rsp (stkDepth e.arch.bank.rsp e.arch.bank.rslim) })

/-- R288, R289: a NOP in the slot of GATE or GRET: with its end come the new ring, settled, and the destination. -/
def Obligations.SlotOfGateThenRing : Prop :=
  ∀ (s : State) (g : Eng) (sl : Slot) (a : Word) (r : Nat),
    Issues s g 1 → Tops (s.eng g).arch.bank [] [] 0 0 → (s.eng g).slot = some sl → sl.dest = some a →
    sl.change = .ring r → r < 4 →
    ∃ e', exec (.nop g) s = .next (s.setEng g e') ∧ e'.slot = none ∧ e'.arch.pc = a ∧ e'.ring = r ∧ e'.effRing = r ∧
      e'.arch.bank = (s.eng g).arch.bank ∧ (∀ i, i < 32 → i ≠ 16 → i ≠ 17 →
        e'.arch.psw.getLsbD i = (s.eng g).arch.psw.getLsbD i)

/-- R392 to R394, R294, R297, R311: firm windows, WAITI, the predictor instructions and SYNC; where they raise
privilege, and where SYNC waits. Model's choices it rests on: log entry 8. -/
def Obligations.FirmPredictorAndSync : Prop :=
  ∀ (s : State) (g : Eng) (n : BitVec 16) (b : BitVec 8), PlainSlot (s.eng g) → Tops (s.eng g).arch.bank [] [] 0 0 →
    let e := s.eng g
    let lim := min n.toNat (s.get (Adr.TIL_FIRMLIM (tileOf g)) Bits.TIL_FIRMLIM_LIMIT)
    let on (c : Instr) (k : Nat) (e0 : Engine) : Prop :=
      ∃ e', exec c s = .next (s.setEng g e') ∧ SameElse e0 { e' with hold := .none, needD := 0, needR := 0 } ∧
        e'.arch.pc = nextPc e k ∧ e'.arch.psw = e.arch.psw ∧ e'.arch.bank = e.arch.bank
    (e.slot = none → e.flights = [] → e.effRing ≤ 1 →
      (Issues s g 3 → on (.firm g n) 3 { e with firm := if 0 < e.firm then min lim e.firm else lim }) ∧
      (Issues s g 1 → on (.firmEnd g) 1 { e with firm := 0 }) ∧
      (Issues s g 1 → on (.waiti g) 1 e ∧
        ∃ u, exec (.waiti g) s = .next u ∧ (u.eng g).hold = if s.anyPending g then .none else .waiti)) ∧
    (e.slot = none → e.flights = [] → 2 ≤ e.effRing →
      (Issues s g 3 → Raises (.firm g n) s g { code := 5 }) ∧
      (Issues s g 1 → Raises (.firmEnd g) s g { code := 5 } ∧ Raises (.waiti g) s g { code := 5 })) ∧
    (Issues s g 2 →
      on (.pflushCtx g) 2 { e with btb := e.btb.map (fun p =>
        (p.1, p.2.filter (fun x => !(x.ctxn == s.ctxn g && x.ring == e.ring)))) } ∧
      (e.effRing = 0 → on (.pflushAll g) 2 { e with btb := [] }) ∧
      (e.effRing ≠ 0 → e.flights = [] → Raises (.pflushAll g) s g { code := 5 }) ∧
      on (.pbar g b) 2 { e with arch := { e.arch with bar := b.toNat } }) ∧
    (Issues s g 1 → e.drained = true →
      on (.sync g) 1 e ∧ (∃ u, exec (.sync g) s = .next u ∧ (u.eng g).arch.settles = []) ∧
      ∃ u, exec (.syncI g) s = .next u ∧ (u.eng g).icache = [] ∧ (u.eng g).line = none ∧ (u.eng g).arch.pc = nextPc e 1 ∧
        (u.eng g).arch.psw = e.arch.psw ∧ (u.eng g).arch.bank = e.arch.bank ∧ (u.eng g).arch.settles = []) ∧
    (Issues s g 1 → e.drained = false → ∀ c ∈ [Instr.sync g, Instr.syncI g], ∃ e', exec c s = .next (s.setEng g e') ∧
      e'.arch.pc = e.arch.pc ∧ e'.icache = e.icache ∧ e'.line = e.line ∧ e'.arch.settles = e.arch.settles)

/-! ### Loads, stores and atomics -/

/-- R298, R299, R321: a load of memory pushes the bytes at its address, extended as its row says: at once from the own
scratchpad, else when its operation in flight completes. Nothing is written. Model's choices it rests on: log entry 9.
-/
def Obligations.LoadsReadMemory : Prop :=
  ∀ (s : State) (g : Eng) (a : Word) (x : Nat) (d : BitVec 8),
    let e := s.eng g
    let at_ (p : Word) (n : Nat) : Prop := MemoryAt g p.toNat n x ∧ Clean s x n ∧ Unbuffered e x n ∧ LoadRoom e g ∧
      allowed e.effPr e.effRing p.toNat n 16 = true
    let loads (c : Instr) (p : Word) (k n nd : Nat) (v : List Word) : Prop :=
      at_ p n → RunsAs c s g (afterLoad e p.toNat) k nd 0 (loadTag e p.toNat) v [] none none false
    let m (n : Nat) : Nat := memValue s x n
    let dbl : List Word := [BitVec.ofNat 32 (m 8 / 2 ^ 32), BitVec.ofNat 32 (m 8)]
    (Ready s g 1 [a] [] 1 0 →
      loads (.ld8u g) a 1 1 1 [BitVec.ofNat 32 (m 1)] ∧ loads (.ld8s g) a 1 1 1 [BitVec.ofInt 32 (BitVec.ofNat 8 (m 1)).toInt] ∧
      loads (.ld16u g) a 1 2 1 [BitVec.ofNat 32 (m 2)] ∧
      loads (.ld16s g) a 1 2 1 [BitVec.ofInt 32 (BitVec.ofNat 16 (m 2)).toInt] ∧
      loads (.ld32 g) a 1 4 1 [BitVec.ofNat 32 (m 4)]) ∧
    (Ready s g 1 [a] [] 2 0 → loads (.ld64 g) a 1 8 1 dbl) ∧
    (Ready s g 2 [a] [] 1 0 →
      loads (.ld32d g d) (a + BitVec.ofInt 32 (4 * d.toInt)) 2 4 1 [BitVec.ofNat 32 (m 4)]) ∧
    (Ready s g 2 [a] [] 2 0 → loads (.ld64d g d) (a + BitVec.ofInt 32 (8 * d.toInt)) 2 8 1 dbl) ∧
    (Ready s g 5 [] [] 1 0 → loads (.ld32a g a) a 5 4 0 [BitVec.ofNat 32 (m 4)])

/-- R298, R303, R331: a store of memory enters the store buffer with its bytes, lowest first, as one entry or, across
a 64-bit boundary of the own scratchpad, as a pair of halves. No byte of memory changes yet. Model's choices it rests
on: log entry 10. -/
def Obligations.StoresEnterTheBuffer : Prop :=
  ∀ (s : State) (g : Eng) (a v w : Word) (x : Nat) (d : BitVec 8),
    let e := s.eng g
    let entry (p : Word) (k : Nat) (b : List Byte) (pair : Bool) : SbEntry :=
      { adr := x + k, bytes := b, faddr := p + BitVec.ofNat 32 k, tag := e.nextTag, pair := pair, ctx := s.ctxOf g
        ring := e.effRing, pc := e.arch.remotePc.toNat }
    let split (p : Word) (n : Nat) : Bool := decide (p.toNat < 0x10000 ∧ 8 < p.toNat % 8 + n)
    let entries (p : Word) (n val : Nat) : List SbEntry :=
      let b := leBytes n val
      let k := 8 - p.toNat % 8
      if split p n then [entry p 0 (b.take k) true, entry p k (b.drop k) false] else [entry p 0 b false]
    let stores (c : Instr) (p : Word) (k n nd val : Nat) : Prop :=
      MemoryAt g p.toNat n x → allowed e.effPr e.effRing p.toNat n 8 = true →
      e.sb.length + (entries p n val).length ≤ sbSize g →
      RunsAs c s g { e with sb := e.sb ++ entries p n val } k nd 0 none [] [] none none false
    let dbl := w.toNat * 2 ^ 32 + v.toNat
    (Ready s g 1 [a, v] [] 0 0 →
      stores (.st8 g) a 1 1 2 v.toNat ∧ stores (.st16 g) a 1 2 2 v.toNat ∧ stores (.st32 g) a 1 4 2 v.toNat) ∧
    (Ready s g 1 [a, w, v] [] 0 0 → stores (.st64 g) a 1 8 3 dbl) ∧
    (Ready s g 2 [a, v] [] 0 0 → stores (.st32d g d) (a + BitVec.ofInt 32 (4 * d.toInt)) 2 4 2 v.toNat) ∧
    (Ready s g 2 [a, w, v] [] 0 0 → stores (.st64d g d) (a + BitVec.ofInt 32 (8 * d.toInt)) 2 8 3 dbl) ∧
    (Ready s g 5 [v] [] 0 0 → stores (.st32a g a) a 5 4 1 v.toNat)

/-- R300, R301, R306: the exceptions of every load and store in their order, with the stack as it was: misaligned;
protection, at the part that lacks its right; privilege, for a store to a register that bars the ring; bus error, at
an unmapped address, at a memory or a register address that answers ERR, and at the part of the data that is
uncorrectable. Model's choices it rests on: log entry 8. -/
def Obligations.AccessExceptionsInOrder : Prop :=
  ∀ (s : State) (g : Eng) (a v w : Word) (d : BitVec 8), (s.eng g).flights = [] →
    let e := s.eng g
    let q4 := a + BitVec.ofInt 32 (4 * d.toInt)
    let q8 := a + BitVec.ofInt 32 (8 * d.toInt)
    let loads (f : Instr → Word → Nat → Prop) : Prop :=
      (Ready s g 1 [a] [] 1 0 → f (.ld8u g) a 1 ∧ f (.ld8s g) a 1 ∧ f (.ld16u g) a 2 ∧ f (.ld16s g) a 2 ∧ f (.ld32 g) a 4) ∧
      (Ready s g 1 [a] [] 2 0 → f (.ld64 g) a 8) ∧ (Ready s g 2 [a] [] 1 0 → f (.ld32d g d) q4 4) ∧
      (Ready s g 2 [a] [] 2 0 → f (.ld64d g d) q8 8) ∧ (Ready s g 5 [] [] 1 0 → f (.ld32a g a) a 4)
    let stores (f : Instr → Word → Nat → Prop) : Prop :=
      (Ready s g 1 [a, v] [] 0 0 → f (.st8 g) a 1 ∧ f (.st16 g) a 2 ∧ f (.st32 g) a 4) ∧
      (Ready s g 1 [a, w, v] [] 0 0 → f (.st64 g) a 8) ∧ (Ready s g 2 [a, v] [] 0 0 → f (.st32d g d) q4 4) ∧
      (Ready s g 2 [a, w, v] [] 0 0 → f (.st64d g d) q8 8) ∧ (Ready s g 5 [v] [] 0 0 → f (.st32a g a) a 4)
    let reg (q : Word) : Prop := 0x30000000 ≤ q.toNat ∧ q.toNat < 0x40000000
    let mis (q : Word) (n : Nat) : Prop := q.toNat % n ≠ 0 ∧ ¬ reg q ∧ (q.toNat < 0x10000 → 0x10000 < q.toNat + n)
    let split (q : Word) (n : Nat) : Prop := q.toNat < 0x10000 ∧ 8 < q.toNat % 8 + n
    let upper (q : Word) : Word := q + BitVec.ofNat 32 (8 - q.toNat % 8)
    let may (q : Word) (n need : Nat) : Prop := allowed e.effPr e.effRing q.toNat n need = true
    let misaligned (c : Instr) (q : Word) (n : Nat) : Prop := mis q n → Raises c s g { code := 2, faddr := q }
    let barred (need : Nat) (c : Instr) (q : Word) (n : Nat) : Prop := ¬ mis q n → ¬ may q n need → Raises c s g
      { code := 4, faddr := if split q n ∧ may q (8 - q.toNat % 8) need then upper q else q }
    let nowhere (need : Nat) (c : Instr) (q : Word) (n : Nat) : Prop :=
      ¬ mis q n → may q n need → (0x10000 ≤ q.toNat ∧ q.toNat < 0x1000000) ∨ (0x80F8000 ≤ q.toNat ∧ q.toNat < 0x10000000) →
        Raises c s g { code := 3, faddr := q }
    loads misaligned ∧ stores misaligned ∧ loads (barred 16) ∧ stores (barred 8) ∧ loads (nowhere 16) ∧ stores (nowhere 8) ∧
    stores (fun c q n => may q n 8 → ∀ r, regRef q.toNat = some r → r.view = false →
      grantEngine r.row.perm g e.effRing r.unit r.i = .priv g → Raises c s g { code := 5, faddr := q }) ∧
    loads (fun c q n => may q n 16 → reg q → regRef q.toNat = none → e.drained = true →
      Raises c s g { code := 3, faddr := q }) ∧
    loads (fun c q n => ∀ x, may q n 16 → MemoryAt g q.toNat n x → Unbuffered e x n → LoadRoom e g →
      (s.memErr x = true → Raises c s g { code := 3, faddr := q }) ∧
      (s.memErr x = false → Sound s → s.codeStat x = .bad ∨ s.codeStat (x + n - 1) = .bad →
        let it : Exc := { code := 3, faddr := if s.codeStat x = .bad then q else upper q }
        ∃ u, exec c s = .next u ∧ u.eng g = { e.rollback with hold := .none, exc := some it }))

/-- R309, R310, R313, R315: the atomics on tile memory and library memory behind every earlier store: the old value on
the stack and the new one in memory, every other byte as it was; the link set, and what a conditional store makes of
it. Model's choices it rests on: log entry 11. -/
def Obligations.AtomicsOnMemory : Prop :=
  ∀ (s : State) (g : Eng) (a v w : Word) (x : Nat),
    let e := s.eng g
    let here (n need : Nat) : Prop := 0x10000 ≤ a.toNat ∧ MemoryAt g a.toNat n x ∧ Clean s x n ∧ ¬ inChannels x = true ∧
      s.writeErr x n = false ∧ e.quiet = true ∧ allowed e.effPr e.effRing a.toNat n need = true ∧ Sound s
    let done (c : Instr) (nd : Nat) (out : List Word) (n : Nat) (val : Option Nat) (link : Option Nat) : Prop :=
      ∃ t, exec c s = .next t ∧ (t.eng g).link = link ∧ (t.eng g).arch.psw = e.arch.psw ∧
        (t.eng g).arch.pc = nextPc e 1 ∧ Stacked e.arch.bank (t.eng g).arch.bank nd 0 none out [] ∧
        ∀ c, memRd t.mem c = match val with
          | some y => if x ≤ c ∧ c < x + n then BitVec.ofNat 8 (y / 256 ^ (c - x)) else memRd s.mem c
          | none => memRd s.mem c
    let old := BitVec.ofNat 32 (memValue s x 4)
    let other : Option Nat := e.link.bind (fun y => if y < x + 4 ∧ x < y + 8 then none else some y)
    (here 4 24 → Ready s g 1 [a, v] [] 1 0 →
      done (.aadd g) 2 [old] 4 (some (old + v).toNat) other ∧ done (.aswap g) 2 [old] 4 (some v.toNat) other) ∧
    (here 4 24 → Ready s g 1 [a] [] 1 0 → done (.link g) 1 [old] 4 none (some (x / 8 * 8))) ∧
    (here 8 24 → Ready s g 1 [a] [] 2 0 →
      done (.link64 g) 1 [BitVec.ofNat 32 (memValue s x 8 / 2 ^ 32), BitVec.ofNat 32 (memValue s x 8)] 8 none (some (x / 8 * 8))) ∧
    (here 4 8 → Ready s g 1 [a, v] [] 1 0 →
      (e.link = some (x / 8 * 8) → done (.cstore g) 2 [0xFFFFFFFF] 4 (some v.toNat) none) ∧
      (e.link ≠ some (x / 8 * 8) → done (.cstore g) 2 [0] 4 none none)) ∧
    (here 8 8 → Ready s g 1 [a, w, v] [] 1 0 →
      (e.link = some (x / 8 * 8) → done (.cstore64 g) 3 [0xFFFFFFFF] 8 (some (w.toNat * 2 ^ 32 + v.toNat)) none) ∧
      (e.link ≠ some (x / 8 * 8) → done (.cstore64 g) 3 [0] 8 none none))

/-- R301, R306, R310: the exceptions of the six atomics: misaligned at any address that is no multiple of the width,
protection, and bus error outside tile memory and library memory and at a memory that answers ERR; none makes an
access. Model's choices it rests on: log entry 8. -/
def Obligations.AtomicsThatFault : Prop :=
  ∀ (s : State) (g : Eng) (a v w : Word), (s.eng g).flights = [] →
    let e := s.eng g
    let p := a.toNat
    let inside : Prop := (0x8000000 ≤ p ∧ p < 0x80F8000) ∨ (0x20000000 ≤ p ∧ p < 0x20800000) ∨
      (0x10000000 ≤ p ∧ p < 0x1C000000 ∧ 0x800000 ≤ p % 0x1000000 ∧ p % 0x1000000 < 0x8F8000)
    let faults (c : Instr) (n need : Nat) : Prop :=
      let may : Prop := allowed e.effPr e.effRing p n need = true
      (p % n ≠ 0 → Raises c s g { code := 2, faddr := a }) ∧
      (p % n = 0 → ¬ may → Raises c s g { code := 4, faddr := a }) ∧
      (p % n = 0 → may → ¬ inside → Raises c s g { code := 3, faddr := a }) ∧
      (∀ x, may → inside → MemoryAt g p n x → e.quiet = true → s.memErr x = true → Raises c s g { code := 3, faddr := a })
    (Ready s g 1 [a, v] [] 1 0 → faults (.aadd g) 4 24 ∧ faults (.aswap g) 4 24 ∧ faults (.cstore g) 4 8) ∧
    (Ready s g 1 [a] [] 1 0 → faults (.link g) 4 24) ∧ (Ready s g 1 [a] [] 2 0 → faults (.link64 g) 8 24) ∧
    (Ready s g 1 [a, w, v] [] 1 0 → faults (.cstore64 g) 8 8)

/-! ### Events of an engine's pipeline -/

/-- R301, R304, R324, R331, R332: the oldest entry of the store buffer leaves it once retired, a pair whole. A store
of memory is then in memory, every other byte stays, and a link to its word clears (R314); its ERR, the memory's or an
unmapped address's, is on its way to the engine; a store of the external window waits for its answer, and one of a
register writes it at the ring that issued it. Model's choices it rests on: log entry 10. -/
def Obligations.StoreBufferDrainWritesMemory : Prop :=
  ∀ (s : State) (g : Eng) (x : SbEntry) (r : List SbEntry), (s.eng g).sb = x :: r →
    let e := s.eng g
    let mem (y : SbEntry) : Prop := ((memTile y.adr).isSome = true ∨ inLibrary y.adr = true) ∧ y.bytes ≠ [] ∧
      codeBase y.adr = codeBase (y.adr + y.bytes.length - 1) ∧ inChannels y.adr = false
    let takes (y : SbEntry) : Prop := mem y ∧ s.writeErr y.adr y.bytes.length = false
    let within (y : SbEntry) (c : Nat) : Prop := y.adr ≤ c ∧ c < y.adr + y.bytes.length
    let unlinked (t : State) (y : SbEntry) : Prop :=
      ∀ h w, (t.eng h).link = some w → ¬ (w < y.adr + y.bytes.length ∧ y.adr < w + 8)
    let failed (rest : List SbEntry) : Prop := exec (.storeBufferDrain g) s =
      .next (s.setEng g { e with sb := rest, errs := e.errs ++ [⟨x.faddr, x.ctx⟩] })
    (e.retired x = false → exec (.storeBufferDrain g) s = .next s) ∧
    (e.retired x = true → x.pair = false →
      (takes x → Sound s → ∃ t, exec (.storeBufferDrain g) s = .next t ∧ (t.eng g).sb = r ∧ unlinked t x ∧
        ∀ c, memRd t.mem c = if within x c then x.bytes.getD (c - x.adr) 0 else memRd s.mem c) ∧
      (mem x → s.writeErr x.adr x.bytes.length = true → failed r) ∧
      (sharedPlace none x.adr = .unmapped → failed r) ∧
      (0x40000000 ≤ x.adr → x.adr < 0xC0000000 → ∃ q : MmReq, exec (.storeBufferDrain g) s =
          .next { s.setEng g { e with sb := r, waitResp := e.waitResp ++ [⟨x.faddr, x.ctx⟩] } with mmWait := s.mmWait ++ [q] } ∧
        q.who = .store g x.faddr x.ctx ∧ q.write = true ∧ q.adr = x.adr ∧ q.len = x.bytes.length ∧ q.bytes = x.bytes) ∧
      (inRegSpace x.adr = true → ∀ c u, (s.setEng g { e with sb := r }).regWrite (.engine g) x.ring x.adr x.bytes.length
          (BitVec.ofNat 64 (leVal x.bytes)) = (.done c, u) →
        (c = .ok → exec (.storeBufferDrain g) s = .next u) ∧
        (c ≠ .ok → exec (.storeBufferDrain g) s =
          .next (u.modEng g (fun e => { e with errs := e.errs ++ [⟨x.faddr, x.ctx⟩] }))))) ∧
    (∀ y r', e.retired x = true → x.pair = true → r = y :: r' → mem x → mem y → y.adr = x.adr + x.bytes.length →
      (takes x → takes y → Sound s → ∃ t, exec (.storeBufferDrain g) s = .next t ∧ (t.eng g).sb = r' ∧
        unlinked t x ∧ unlinked t y ∧ ∀ c, memRd t.mem c = if within x c then x.bytes.getD (c - x.adr) 0
          else if within y c then y.bytes.getD (c - y.adr) 0 else memRd s.mem c) ∧
      (s.writeErr x.adr x.bytes.length = true ∨ s.writeErr y.adr y.bytes.length = true → failed r'))

/-- R321, R324, R327, R328, R330, R339, R340, R344, R374, R395, R415: what comes to an engine from its operations in
flight, its lines, its drained stores, its settle counts, its firm window, and a clear of its counters. Model's
choices it rests on: log entries 9, 10, 13 and 115. -/
def Obligations.ResultsLinesAndAnswersArrive : Prop :=
  ∀ (s : State) (g : Eng),
    let e := s.eng g
    let t := tileOf g
    let ready (tag : Nat) (l : List Cell) : List Cell := l.map (fun c => if c.wait = some tag then { c with wait := none } else c)
    let ends (c : Instr) (f : Flight) : Prop := ∃ e', exec c s = .next (s.setEng g e') ∧
      e' = { e with arch := e'.arch, flights := e'.flights, slot := e'.slot } ∧
      e'.arch = { e.arch with bank := { e.arch.bank with ds := ready f.tag e.arch.bank.ds, rs := ready f.tag e.arch.bank.rs } } ∧
      e'.flights.map (fun y => y.tag) = (e.flights.map (fun y => y.tag)).filter (fun y => y != f.tag)
    (∀ f, e.flights.find? (fun y => y.kind == .mul || y.kind == .div) = some f → ends (.multiplyDivideComplete g) f) ∧
    (∀ k f, (e.flights.filter (fun y => y.kind == .tile || y.kind == .fabric))[k]? = some f → ends (.loadComplete g k) f) ∧
    (∀ (a : Word) (x : Nat) (ext : List Byte) (ok : Bool), Serving s g → ext.length = 32 →
      let base := a.toNat / 32 * 32
      let near : Prop := base < e.arch.pc.toNat + 10 ∧ e.arch.pc.toNat < base + 32
      let held : Prop := ∃ y, e.line = some y ∧ y.adr = base
      let goes (e' : Engine) : Prop := exec (.lineFill g a ext ok) s = .next (s.setEng g e')
      let fills (l : ILine) : Prop := (l.bad = true → ¬ near → e.hasLine g base = false → goes e) ∧
        (l.bad = false ∨ near → ∃ e', goes e' ∧
          e' = { (if e.hasLine g base then e.count 8 else e) with line := some l, icache := e'.icache, missed := some base } ∧
          ∀ y, e.line = some y → y.bad = false → (mget [] e'.icache (y.adr / 32 % icSets g)).any (fun z => z.adr == y.adr) = true)
      let extLine : ILine := { adr := base, bytes := ext, bad := !ok }
      (e.vectorDue base = true → goes { e with vectors := e.vectors.map (fun l => if l.adr = base then extLine else l) }) ∧
      (e.vectorDue base = false → held → goes e) ∧
      (e.vectorDue base = false → ¬ held → allowed e.effPr e.effRing a.toNat 1 4 = true → fetchPlace g a.toNat = true →
        (MemoryAt g base 32 x → Clean s x 32 → fills { adr := base, bytes := memBytes s.mem x 32 }) ∧
        (MemoryAt g base 32 x → s.memErr x = true → fills { adr := base, bytes := List.replicate 32 0, bad := true }) ∧
        (0x40000000 ≤ base → base < 0xC0000000 → fills extLine)) ∧
      (e.vectorDue base = false → allowed e.effPr e.effRing a.toNat 1 4 = false ∨ fetchPlace g a.toNat = false → goes e)) ∧
    (∀ y r, e.errs = y :: r →
      (s.placed g = true → s.ctxOf g = y.ctx →
        exec (.storeErrResponse g) s = .next (s.setEng g { e with errs := r, arrived := e.arrived ++ [y] })) ∧
      (s.placed g = false ∨ s.ctxOf g ≠ y.ctx →
        Leads (.storeErrResponse g) s (s.setEng g { e with errs := r }) [Adr.CAL_CTX_CTL t y.ctx, Adr.CAL_CTX_DFADDR t y.ctx]
          (fun u => u.get (Adr.CAL_CTX_CTL t y.ctx) Bits.CAL_CTX_CTL_DFLT = 1 ∧
            u.reg (Adr.CAL_CTX_DFADDR t y.ctx) = y.faddr.setWidth 64))) ∧
    exec (.settleComplete g) s =
      .next (s.setEng g { e with arch := { e.arch with settles := e.arch.settles.filter (fun y => 0 < y.left) } }) ∧
    (0 < e.firm → exec (.firmWindowExpiry g) s = .next { s.setEng g { e with firm := 0 } with
      reports := s.reports ++ (if s.recognisableLevel g false ≠ none then
        [{ cls := 0, src := 256 * t + 3, det := BitVec.ofNat 32 g, cyc := s.fbclk }] else []) }) ∧
    (∀ v : Word, s.canIssue g = true →
      (e.effRing = 0 → exec (.pcClear g v) s = .next (s.setEng g { e with arch := { e.arch with
        perfCtl := v &&& 0x10F, perf := if v.getLsbD 4 then List.replicate 22 0 else e.arch.perf } })) ∧
      (e.effRing ≠ 0 → e.flights = [] → Raises (.pcClear g v) s g { code := 5 }))

/-- R353 to R356: a spill writes the deepest cached cells to the stack area, and a fill reads the cells below them,
poisoned where their word is uncorrectable; PC_SPILLS and PC_FILLS count the cells, and nothing else of memory
changes. Model's choices it rests on: log entries 12 and 41. -/
def Obligations.StacksSpillAndFill : Prop :=
  ∀ (s : State) (g : Eng) (ret : Bool), Serving s g → Sound s →
    let e := s.eng g
    let v := e.view ret
    let n := v.cells.length
    let deep := spMove v.sp (-(n : Int))
    let out := if deep.toNat % 8 = 0 then 2 else 1
    let below := cellForm v.sp n
    let inn := if below.toNat % 8 = 4 then min 2 v.below else 1
    let at_ (i : Nat) : Nat := stkAdr g (cellForm v.sp (n + i))
    (ret = true ∨ e.retDue = false) →
    (v.spillDue = true ↔ v.cap < n + (if v.spilling then v.spillTo else v.spillAt)) ∧
    (v.fillDue = true ↔ n < max v.fillAt v.need ∧ 0 < v.below) ∧
    (v.spillDue = true → 4 * n ≤ spOff v.sp → s.stackAnswers g deep = true →
      (∀ c ∈ v.cells, c.wait = none ∧ c.poison = false) →
      ∃ u, exec (.stackSpill g ret) s = .next u ∧
        (u.eng g).arch = ((e.setCells ret (v.cells.take (n - out))).count 17 out).arch ∧
        ((u.eng g).view ret).spilling = decide (v.cap < n - out + v.spillTo) ∧
        Wrote s u (stkAdr g deep) (wordBytes (vals (v.cells.drop (n - out))).reverse)) ∧
    (v.fillDue = true → s.stackAnswers g below = true →
      ((∀ i, i < inn → Clean s (at_ i) 4) → ∃ e', exec (.stackFill g ret) s = .next (s.setEng g e') ∧
        e'.arch = ((e.setCells ret (v.cells ++
          (List.range inn).map (fun i => { val := BitVec.ofNat 32 (memValue s (at_ i) 4) }))).count 18 inn).arch) ∧
      (s.codeStat (at_ 0) = .bad → ∃ u l, exec (.stackFill g ret) s = .next u ∧ ((u.eng g).view ret).cells = v.cells ++ l ∧
        l.length = inn ∧ (∀ c ∈ l, c.poison = true) ∧ u.mem = s.mem))

/-- R390, R403, R410: the highest recognisable interrupt becomes the pending exception at the boundary B: behind what
was issued, or before the oldest divide or far load in flight, and before a branch whose slot has not run; a deferred
bus error comes first. Model's choices it rests on: log entries 8 and 42. -/
def Obligations.InterruptRecognition : Prop :=
  ∀ (s : State) (g : Eng), Serving s g →
    let e := s.eng g
    let c : Instr := .interruptRecognition g
    let rested (x : Engine) : Engine := { x with hold := .none, needD := 0, needR := 0 }
    let from_ (x : Engine) (l : Nat) : Engine := { x.rollback with exc := some { code := 12 + l } }
    e.exc = none → e.parking = false → s.ucStops g = false →
      (∀ l, e.arrived = [] → s.recognisable g (0 < e.firm) = some l →
        ((∀ f ∈ e.flights, f.kind = .mul) → exec c s = .next (s.setEng g (from_ (rested e) l))) ∧
        (∀ f, (∀ y ∈ e.flights, y.kind ≠ .tile) → e.flights.find? (fun y => y.kind != .mul) = some f →
          exec c s = .next (s.setEng g (from_ (e.squashTo f) l))) ∧
        ((∃ y ∈ e.flights, y.kind = .tile) → ∃ (x : Engine) (u : State), exec c s = .next (u.setEng g (from_ x l)) ∧
          u = { s with fresh := u.fresh } ∧ (x = rested e ∨ ∃ f ∈ e.flights, f.kind ≠ .mul ∧ x = e.squashTo f))) ∧
      (∀ y r, e.arrived = y :: r →
        (e.flights = [] → exec c s = .next (s.setEng g
          { e.rollback with arrived := r, exc := some { code := 3, faddr := y.faddr, defer := true } })) ∧
        (e.flights ≠ [] → exec c s = .next s)) ∧
      (e.arrived = [] → s.recognisable g (0 < e.firm) = none → exec c s = .next s)

/-- R399, R400, R402, R404 to R407: entry to a synchronous exception or an interrupt saves the frame at TSBP.FRAME and
nothing else of memory, and leaves the engine at its handler in ring 0; an interrupt gives way to a higher one that is
recognisable. Model's choices it rests on: log entries 8, 12 and 113. -/
def Obligations.ExceptionEntrySavesTheFrame : Prop :=
  ∀ (s : State) (g : Eng) (late : Bool) (x0 : Exc) (y : Nat), Serving s g → Sound s →
    let e := s.eng g
    let b := e.arch.bank
    let t := tileOf g
    let int (c : Nat) : Prop := 12 ≤ c ∧ c ≤ 17
    let top := min 4 (stkDepth b.dsp b.dslim)
    let frame : Nat := pswGet e.arch.tsbp Bits.TSBP_FRAME
    let limit (p l : Word) (n : Nat) : Word :=
      BitVec.ofNat 32 (spOff p * 2 ^ 16 + min 0xFFF8 (max (limTop l) (spOff p + 4 * n - 4)))
    let res := s.reg (Adr.TIL_XRES t)
    let bad (i : Nat) : Bool := (b.ds[i]?).any (fun c => c.poison)
    e.exc = some x0 → e.sb = [] → e.flights = [] → e.nd < 7 → framePlace g (64 * frame) = some y →
    pswGet e.arch.tsbp Bits.TSBP_LEFT ≠ 0 → (∀ i, i < 16 → s.writeFails (y + 4 * i) 4 = false) → top ≤ b.ds.length →
    ∀ x : Exc, (x = x0 ∧ (x0.code < 12 ∨ (int x0.code ∧ ∀ l, s.recognisable g (0 < e.firm) = some l → 12 + l ≤ x0.code))) ∨
      (∃ l, int x0.code ∧ s.recognisable g (0 < e.firm) = some l ∧ x0.code < 12 + l ∧
        x = { x0 with code := 12 + l, tover := x0.tover || late }) →
    ∃ u, exec (.exceptionEntry g late) s = .next u ∧
      Wrote s u y (wordBytes ([e.arch.pc, pswPut (s.psw g) Bits.PSW_FIRM 0, b.dsp, b.rsp, b.dslim, b.rslim] ++
        (List.range 4).map (fun i => if i < top ∧ ¬ bad i then (vals b.ds).getD i 0 else 0) ++
        [BitVec.ofNat 32 (x.code * 2 ^ 24 + x.detail % 256 * 2 ^ 16 + bnat x.defer * 2 ^ 15 + bnat x.tover * 2 ^ 14 +
            ((List.range top).map (fun i => bnat (bad i) * 2 ^ (8 + i))).sum + top),
          if 12 ≤ x.code then 0 else x.faddr, BitVec.ofNat 32 (s.ctxn g), s.time.setWidth 32, 0, 0])) ∧
      (u.eng g).arch.pc = (s.reg (Adr.TIL_VBASE t)).setWidth 32 + BitVec.ofNat 32 (64 * x.code) ∧
      (u.eng g).ring = 0 ∧ (u.eng g).ipl = (if x.code = 17 then max (max e.ipl (s.get (Adr.DBG_TCTL t) Bits.DBG_TCTL_MLVL)) 1
        else if 12 ≤ x.code then x.code - 11 else max e.ipl 1) ∧
      (∀ i, i < 24 → (u.eng g).arch.psw.getLsbD i = false) ∧ (u.eng g).arch.exring = e.ring :: e.arch.exring ∧
      pswGet (u.eng g).arch.tsbp Bits.TSBP_FRAME = (frame + 1) % 2 ^ 26 ∧
      pswGet (u.eng g).arch.tsbp Bits.TSBP_LEFT = pswGet e.arch.tsbp Bits.TSBP_LEFT - 1 ∧
      (u.eng g).arch.bank = { b with dslim := limit b.dsp b.dslim (fldOf res Bits.TIL_XRES_DRES)
                                     rslim := limit b.rsp b.rslim (fldOf res Bits.TIL_XRES_RRES) } ∧
      (u.eng g).exc = none ∧ (u.eng g).slot = none ∧ (u.eng g).link = none ∧ (u.eng g).firm = 0 ∧
      (u.eng g).inMon = (e.inMon || decide (x.code = 17)) ∧ (u.eng g).arch.settles = [] ∧ (u.eng g).arch.bar = 0 ∧
      (u.eng g).arch.ext = e.arch.ext ∧ (u.eng g).arch.pr = e.arch.pr

/-- R416 to R418, R420, R555: an entry that cannot save writes no byte of memory: the engine freezes with the first
reason that holds, its record holds its state unless one is held already, and the engine, for E0 its tile, is fenced
and reported. Model's choices it rests on: log entries 8 and 57. -/
def Obligations.LastGaspFreezesTheEngine : Prop :=
  ∀ (s : State) (g : Eng) (late : Bool) (x : Exc) (reason : Nat), Serving s g → Sound s →
    let e := s.eng g
    let b := e.arch.bank
    let t := tileOf g
    let top := min 4 (stkDepth b.dsp b.dslim)
    let place := framePlace g (64 * pswGet e.arch.tsbp Bits.TSBP_FRAME)
    let bad (i : Nat) : Bool := (b.ds[i]?).any (fun c => c.poison)
    e.exc = some x → x.code < 12 ∨ x.code = 18 → e.sb = [] → e.flights = [] → top ≤ b.ds.length →
    (if x.code = 18 then reason = 4 else if 7 ≤ e.nd then reason = 5 else match place with
      | none => reason = 1
      | some y => if pswGet e.arch.tsbp Bits.TSBP_LEFT = 0 then reason = 2
          else reason = 3 ∧ ∃ i, i < 16 ∧ s.writeFails (y + 4 * i) 4 = true) →
    ∃ u, exec (.exceptionEntry g late) s = .next u ∧ (u.eng g).frozen = true ∧ u.mem = s.mem ∧
      (if isLead g then u.tileFenced t = true else u.engFenced g = true) ∧ u.bit (Adr.TIL_LGSTAT t) (engOf g) = true ∧
      u.reports = s.reports ++ [{ cls := 1, src := 256 * t + 7, det := BitVec.ofNat 32 (reason * 256 + g.val), cyc := s.fbclk
                                  last := isLead g }] ∧
      (∀ i, i < 16 → s.bit (Adr.TIL_LGSTAT t) (engOf g) = true →
        u.reg (Adr.ENG_LG t (engOf g) i) = s.reg (Adr.ENG_LG t (engOf g) i)) ∧
      ∀ i, i < 16 → s.bit (Adr.TIL_LGSTAT t) (engOf g) = false → u.reg (Adr.ENG_LG t (engOf g) i) =
        (([e.arch.pc, pswPut (s.psw g) Bits.PSW_FIRM 0, b.dsp, b.rsp, b.dslim, b.rslim, e.arch.tsbp,
          BitVec.ofNat 32 (x.code * 2 ^ 24 + x.detail % 256 * 2 ^ 16 + bnat x.defer * 2 ^ 15 + bnat x.tover * 2 ^ 14 +
            ((List.range top).map (fun i => bnat (bad i) * 2 ^ (8 + i))).sum + top), x.faddr, BitVec.ofNat 32 (reason * 2 ^ 28)] ++
          (List.range 4).map (fun i => if i < top ∧ ¬ bad i then (vals b.ds).getD i 0 else 0)).getD i 0).setWidth 64

/-- R35, R411 to R413: ERET raises privilege outside ring 0 and waits until its engine's stores have drained; it
checks its frame (R412), and after its delay slot the frame is restored in one step. Model's choices it rests on: log
entries 8 and 12. -/
def Obligations.EretRestoresItsFrame : Prop :=
  ∀ (s : State) (g : Eng) (k x : Nat) (sl : Slot) (f : List Word),
    let e := s.eng g
    let b := e.arch.bank
    let w (i : Nat) : Word := f.getD i 0
    let frame := pswGet e.arch.tsbp Bits.TSBP_FRAME
    let fa := (64 * frame + (2 ^ 32 - 64)) % 2 ^ 32
    let saved := ((w 1).extractLsb' 16 2).toNat
    let place := framePlace g fa
    (BranchReady s g 1 k [] [] 0 → e.flights = [] →
      (e.effRing ≠ 0 → Raises (.eret g) s g { code := 5 }) ∧
      (e.effRing = 0 → e.drained = false → ∃ e', exec (.eret g) s = .next (s.setEng g e') ∧ e'.arch.pc = e.arch.pc ∧
        e'.arch.bank = b ∧ e'.slot = none ∧ e'.exc = none) ∧
      (e.effRing = 0 → e.drained = true →
        (place = none ∨ (place = some x ∧ s.memErr x = true) → Raises (.eret g) s g { code := 3, faddr := BitVec.ofNat 32 fa }) ∧
        (place = some x → s.memErr x = false → Sound s → ∀ i, i < 8 → (∀ j, j < i → s.codeStat (x + 8 * j) = .clean) →
          s.codeStat (x + 8 * i) = .bad → ∃ u, exec (.eret g) s = .next u ∧
            (u.eng g).exc = some { code := 3, faddr := BitVec.ofNat 32 (fa + 8 * i) } ∧ (u.eng g).arch = e.arch) ∧
        (place = some x → Clean s x 64 → f = memWords s x 16 →
          (∀ v, frameBad f = some v → Raises (.eret g) s g { code := 7, detail := 4, faddr := v }) ∧
          (frameBad f = none → saved < e.arch.exring.headD 0 → Raises (.eret g) s g { code := 11 }) ∧
          (frameBad f = none → e.arch.exring.headD 0 ≤ saved →
            BranchesTo (.eret g) s g 1 0 0 (some (w 0)) [] (.eret f) e.arch.bar)))) ∧
    (Issues s g 1 → Tops b [] [] 0 0 → e.slot = some sl → sl.change = .eret f → 0 < frame → Sound s →
      4 * b.ds.length ≤ spOff b.dsp → 4 * b.rs.length ≤ spOff b.rsp →
      let top := min 4 ((w 10).toNat % 8)
      let level := ((w 1).extractLsb' 24 3).toNat
      let left := pswGet e.arch.tsbp Bits.TSBP_LEFT
      let down := e.arch.exring.drop 1
      let stay (p q : Word) : Prop := spArea p = spArea q ∧ spOff p ≤ spOff q
      let kept (p q : Word) (l : List Cell) : List Cell := if stay p q then l.drop ((spOff q - spOff p) / 4) else []
      let goes (m : Nat → Byte) (p q : Word) (l : List Cell) : Nat → Byte :=
        if stay p q then m else laid m (stkAdr g (spMove q (-(l.length : Int)))) (wordBytes (vals l).reverse)
      ∃ u, exec (.nop g) s = .next u ∧ (u.eng g).slot = none ∧ (u.eng g).firm = 0 ∧ (u.eng g).arch.pc = w 0 ∧
        (u.eng g).arch.exring = down ∧ (u.eng g).ipl = (if down = [] then level else max level 1) ∧
        (∀ i ∈ [0, 1, 2, 16, 17], (u.eng g).arch.psw.getLsbD i = (w 1).getLsbD i) ∧
        (u.eng g).arch.psw.getLsbD 31 = ((w 1).getLsbD 31 && !decide (s.mode = modeRun)) ∧ (u.eng g).arch.settles = [] ∧
        (u.eng g).arch.bank.dsp = w 2 ∧ (u.eng g).arch.bank.rsp = w 3 ∧ (u.eng g).arch.bank.dslim = w 4 ∧
        (u.eng g).arch.bank.rslim = w 5 ∧
        (u.eng g).arch.bank.ds = (List.range top).map (fun i => { val := w (6 + i), poison := (w 10).getLsbD (8 + i) }) ++
          (kept (w 2) b.dsp b.ds).drop top ∧
        (u.eng g).arch.bank.rs = kept (w 3) b.rsp b.rs ∧
        pswGet (u.eng g).arch.tsbp Bits.TSBP_FRAME = frame - 1 ∧
        pswGet (u.eng g).arch.tsbp Bits.TSBP_LEFT = (if left = 7 then 7 else left + 1) ∧
        (u.eng g).arch.ext = e.arch.ext ∧ (u.eng g).arch.pr = e.arch.pr ∧
        ∀ c, memRd u.mem c = goes (goes (memRd s.mem) (w 2) b.dsp b.ds) (w 3) b.rsp b.rs c)

/-- R134 to R143: the figure instructions in a context that owns its extended state: the checks of FIG, the ticket and
the queue, VL, and what WAIT and WAIT.TRY find of a ticket. Model's choices it rests on: log entries 8 and 70. -/
def Obligations.FigureInstructions : Prop :=
  ∀ (s : State) (g : Eng) (n : BitVec 8) (d : Word), OwnsExt s g → (s.eng g).flights = [] →
    let e := s.eng g
    let t := tileOf g
    let u := s.figure t
    let m := s.reg (Adr.FIG_MAP t n.toNat)
    let tk := s.get (Adr.FIG_STAT t) Bits.FIG_STAT_NEXT
    let on (c : Instr) (k nd : Nat) (x : Ext) (v : Word) : Prop :=
      RunsAs c s g { e with arch := { e.arch with ext := x } } k nd 0 none [v] [] none none false
    (Ready s g 1 [d] [] 1 0 →
      on (.setvl g) 1 1 { e.arch.ext with vl := min d.toNat 1024 } (BitVec.ofNat 32 (min d.toNat 1024))) ∧
    (Ready s g 1 [] [] 1 0 → on (.getvl g) 1 0 e.arch.ext (BitVec.ofNat 32 e.arch.ext.vl)) ∧
    (Ready s g 2 [d] [] 1 0 →
      let bad (k : Nat) : Prop := Raises (.fig g n) s g { code := 9, detail := k, faddr := d } ∧
        Raises (.figTry g n) s g { code := 9, detail := k, faddr := d }
      let valid : Prop := s.figFenced t = false ∧ fldOf m Bits.FIG_MAP_VALID = 1
      (s.figFenced t = true → bad 15) ∧
      (s.figFenced t = false → fldOf m Bits.FIG_MAP_VALID = 0 → bad 12) ∧
      (valid → fldOf m Bits.FIG_MAP_RING < e.effRing → bad 13) ∧
      (valid → e.effRing ≤ fldOf m Bits.FIG_MAP_RING → d.toNat % 64 ≠ 0 → bad 14) ∧
      (valid → e.effRing ≤ fldOf m Bits.FIG_MAP_RING → d.toNat % 64 = 0 → e.sb = [] → e.waitResp = [] →
        let ahead := ((s.figStalled t).takeWhile (fun y => y != engOf g)).length
        (8 ≤ u.queue.length + ahead → on (.figTry g n) 2 1 e.arch.ext 0xFFFFFFFF ∧
          ∃ v, exec (.fig g n) s = .next v ∧ (v.eng g).arch.pc = e.arch.pc ∧ (v.eng g).arch.bank = e.arch.bank ∧
            (v.figure t).queue = u.queue ∧ (engOf g, s.ctxOf g, e.arch.pc) ∈ (v.figure t).waiters) ∧
        (u.queue.length + ahead < 8 → s.get (Adr.FIG_FMT_COMMIT t) cPending = 0 →
          ∀ c ∈ [Instr.fig g n, Instr.figTry g n], ∃ v j, exec c s = .next v ∧ (v.figure t).queue = u.queue ++ [j] ∧
            j.num = n.toNat ∧ j.dptr = d.toNat ∧ j.vl = e.arch.ext.vl ∧ j.ring = e.effRing ∧ j.pr = e.effPr ∧
            j.eng = g.val ∧ j.ticket = tk ∧ j.fmt = s.reg (Adr.FIG_FMT t (fldOf m Bits.FIG_MAP_FMT)) ∧
            (v.figure t).served = engOf g ∧ v.get (Adr.FIG_STAT t) Bits.FIG_STAT_NEXT = (tk + 1) % 256 ∧
            (v.eng g).arch.pc = nextPc e 2 ∧ Stacked e.arch.bank (v.eng g).arch.bank 1 0 none [BitVec.ofNat 32 tk] [] ∧
            (v.eng g).arch.ext.tkt0 = e.arch.ext.tkt0 <<< 8 ||| BitVec.ofNat 32 tk ∧ v.mem = s.mem))) ∧
    (Ready s g 1 [d] [] 1 0 →
      let k := d.toNat % 256
      let st : Word := (s.reg (Adr.FIG_TKSTAT t (k % 16))).setWidth 32
      let known : Prop := getBit u.valid (k % 16) = true ∧ (st.setWidth 8).toNat = k
      let x : Ext := { e.arch.ext with wsum := st }
      (256 ≤ d.toNat → on (.wait g) 1 1 e.arch.ext 0x40000000 ∧ on (.waitTry g) 1 1 e.arch.ext 0x40000000) ∧
      (d.toNat < 256 → s.outstanding t k = true → on (.waitTry g) 1 1 e.arch.ext (BitVec.ofNat 32 (2 ^ 31 + k)) ∧
        ∃ e', exec (.wait g) s = .next (s.setEng g e') ∧ e'.arch.pc = e.arch.pc ∧ e'.arch.bank = e.arch.bank) ∧
      (d.toNat < 256 → s.outstanding t k = false → ¬ known →
        on (.wait g) 1 1 e.arch.ext (BitVec.ofNat 32 (2 ^ 30 + k)) ∧
        on (.waitTry g) 1 1 e.arch.ext (BitVec.ofNat 32 (2 ^ 30 + k))) ∧
      (d.toNat < 256 → s.outstanding t k = false → known → on (.waitTry g) 1 1 x st ∧
        (st.getLsbD 29 = false → on (.wait g) 1 1 x st) ∧
        (st.getLsbD 29 = true → exec (.wait g) s = .next (s.setEng g { e.rollback with
          hold := .none, arch := { e.rollback.arch with ext := { e.rollback.arch.ext with wsum := st } }
          exc := some { code := 9, detail := (st.extractLsb' 25 4).toNat
                        faddr := (s.reg (Adr.FIG_TKDP t (k % 16))).setWidth 32 } })))
    )

/-! ### The caller -/

/-- R358, R361 to R363: the commands of CAL_CMD on each STATE of a context, their refusals, and software events. -/
def Obligations.CallerCommands : Prop :=
  ∀ (s : State) (who : Initiator) (t : Tile) (c : Fin 512),
    let st := s.ctxState t c
    let ctl := Adr.CAL_CTX_CTL t c
    let r := s.reg ctl
    let done := s.answer who .ok
    let others := (s.readyList t).filter (· != c.val)
    let refused (x : Instr) : Prop := exec x s = .next ((s.put (Adr.CAL_STAT t) Bits.CAL_STAT_CMDREF 1).answer who .ok)
    let takes (x : Instr) (k : Nat) : Prop := Leads x s { done with ready := mset s.ready t others } [ctl]
      (fun u => u.reg ctl = putFld r Bits.CAL_CTX_CTL_STATE k)
    let asks (x : Instr) (k : Leave) : Prop := ∀ g, s.engineOf t c = some g →
      exec x s = .next ((s.setEng g { s.eng g with switchTo := some k }).answer who .ok)
    (Accepts s who .r0 t 0 (Adr.CAL_CMD t) →
      (c.val = 0 → ∀ x ∈ [Instr.calLoad who t c, .calHold who t c, .calRelease who t c, .calFree who t c], refused x) ∧
      (c.val ≠ 0 →
        (st ≠ 0 → refused (.calLoad who t c)) ∧ (st ≠ 4 → refused (.calRelease who t c)) ∧
        (st = 0 ∨ st = 5 → refused (.calHold who t c)) ∧ (st = 0 → refused (.calFree who t c)) ∧
        (st = 0 → Leads (.calLoad who t c) s { done with ready := mset s.ready t others }
          [ctl, Adr.CAL_CTX_EVENT t c, Adr.CAL_CTX_DFADDR t c] (fun u =>
            u.reg ctl = putFld (putFld (putFld r Bits.CAL_CTX_CTL_STATE 1) Bits.CAL_CTX_CTL_GEN
              ((fldOf r Bits.CAL_CTX_CTL_GEN + 1) % 8)) Bits.CAL_CTX_CTL_DFLT 0 ∧
            u.reg (Adr.CAL_CTX_EVENT t c) = 0 ∧ u.reg (Adr.CAL_CTX_DFADDR t c) = 0)) ∧
        (st = 1 ∨ st = 2 ∨ st = 4 → takes (.calHold who t c) 4) ∧ (st = 3 → asks (.calHold who t c) .held) ∧
        (st = 4 → Leads (.calRelease who t c) s { done with ready := mset s.ready t (others ++ [c.val]) }
          [ctl, Adr.CAL_CTX_READYT t c] (fun u => u.reg ctl = putFld r Bits.CAL_CTX_CTL_STATE 2 ∧
            u.reg (Adr.CAL_CTX_READYT t c) = (s.time.setWidth 32).setWidth 64)) ∧
        (st = 1 ∨ st = 2 ∨ st = 4 ∨ st = 5 → takes (.calFree who t c) 0) ∧ (st = 3 → asks (.calFree who t c) .free))) ∧
    (Accepts s who .r2 t 0 (Adr.CAL_READY t) →
      (∀ g, who = .engine g → TakesEvent (.calReady who t c) s done t c 4 g.val) ∧
      (who = .host → TakesEvent (.calReady who t c) s done t c 4 0xFFE) ∧
      (who = .debug → TakesEvent (.calReady who t c) s done t c 4 0xFFF))

/-- R35, R364 to R366, R371, R374: the three operations of CAL_PARK, a switch asked of a running context, which a
deferred bus error and a recognisable interrupt come before, a preemption, and the preloaded context coming onto an
engine without one. Model's choices it rests on: log entry 53. -/
def Obligations.ContextsLeaveAndComeOn : Prop :=
  ∀ (s : State) (g : Eng), s.inService g = true →
    let e := s.eng g
    let t := tileOf g
    let c := s.ctxOf g
    let ctl := Adr.CAL_CTX_CTL t c
    let ce := Adr.CAL_ENG t (engOf g)
    let ev := Adr.CAL_CTX_EVENT t c
    let n := s.get ev Bits.CAL_CTX_EVENT_EVCNT
    let goesOn : State := s.setEng g { e with hold := .none }
    let left : Engine := { e with
      idle := .draining c { e.arch with psw := pswPut (s.psw g) Bits.PSW_FIRM 0 }
      link := none, hold := .none, switchTo := none, slot := none, spillD := false, spillR := false, fillD := false
      fillR := false, arch := { e.arch with bank := {}, bar := 0, settles := [] } }
    let leaves (x : Instr) (k : Nat) (tail : List Nat) : Prop :=
      Leads x s { s.setEng g left with ready := mset s.ready t ((s.readyList t).filter (· != c) ++ tail) }
        [ctl, ce, Adr.CAL_CTX_READYT t c] (fun u =>
          u.reg ctl = putFld (putFld (s.reg ctl) Bits.CAL_CTX_CTL_STATE k) Bits.CAL_CTX_CTL_ENG (engOf g) ∧
          u.reg ce = putFld (putFld (s.reg ce) Bits.CAL_ENG_PLACED 0) Bits.CAL_ENG_CTX 0 ∧
          u.reg (Adr.CAL_CTX_READYT t c) =
            if k = 2 then (s.time.setWidth 32).setWidth 64 else s.reg (Adr.CAL_CTX_READYT t c))
    let rival (x : Nat) : Prop := s.ctxPrio t c ≤ s.ctxPrio t x ∧ getBit (s.ctxAff t x) (engOf g) = true
    (e.hold = .park 0 → 0 < n →
      Leads (.parkWait g) s goesOn [ev] (fun u => u.reg ev = putFld (s.reg ev) Bits.CAL_CTX_EVENT_EVCNT (n - 1))) ∧
    (e.hold = .park 1 → (∀ x ∈ s.readyList t, ¬ rival x) → exec (.parkYield g) s = .next goesOn) ∧
    (e.idle = .empty → e.arrived = [] →
      let parks (i : Instr) (k : Nat) (tail : List Nat) : Prop :=
        if e.switchTo = some .held then leaves i 4 [] else if e.switchTo = some .free then leaves i 0 [] else leaves i k tail
      (e.hold = .park 0 → n = 0 → parks (.parkWait g) 1 []) ∧
      (e.hold = .park 1 → (∃ x ∈ s.readyList t, rival x) → parks (.parkYield g) 2 [c]) ∧
      (e.hold = .park 2 → parks (.parkEnd g) 0 []) ∧
      (s.placed g = true → e.flights = [] → e.atSwitch = true → s.recognisable g (0 < e.firm) = none →
        (e.switchTo = some .held → leaves (.contextSwitch g) 4 []) ∧
        (e.switchTo = some .free → leaves (.contextSwitch g) 0 []))) ∧
    (s.placed g = true → e.flights = [] → e.atSwitch = true →
      (∀ y r, e.arrived = y :: r → exec (.contextSwitch g) s =
        .next (s.setEng g { e with arrived := r, exc := some { code := 3, faddr := y.faddr, defer := true } })) ∧
      (e.arrived = [] → s.recognisable g (0 < e.firm) ≠ none → exec (.contextSwitch g) s = .next s) ∧
      (∀ x a, e.arrived = [] → s.recognisable g (0 < e.firm) = none → e.switchTo = some .head → e.idle = .loaded x a → x ≠ c →
        s.placedNext g x = true → s.readyList t = [x] → ∃ u, exec (.contextSwitch g) s = .next u ∧ u.ctxOf g = x ∧
          u.placed g = true ∧ u.ctxState t c = 2 ∧ u.ctxState t x = 3 ∧ u.readyList t = [c] ∧ (u.eng g).arch.pc = a.pc ∧
          (u.eng g).arch.bank = a.bank ∧ (u.eng g).idle = left.idle)) ∧
    (∀ (x : Nat) (a : Arch), e.idle = .loaded x a → x < 512 → s.placed g = false → e.flights = [] → s.placedNext g x = true →
      (∀ i, i < 16 → i ≠ engOf g → ∀ b, (s.eng (16 * t + i)).idle ≠ .loaded x b) →
      let cx := Adr.CAL_CTX_CTL t x
      let level := pswGet a.psw Bits.PSW_IPL
      let psw := pswPut a.psw Bits.PSW_IPL (if e.nd = 0 then level else max 1 level)
      ∃ pf, Leads (.contextSwitch g) s
        { s.setEng g { e with
            arch := { e.arch with
              pc := a.pc, psw := if s.mode = modeRun then pswPut psw Bits.PSW_GM 0 else psw
              bank := a.bank, tsbp := a.tsbp, settles := [], bar := 0, perf := pf }
            idle := .empty, link := none, hold := .none, switchTo := none, slot := none, gmEpoch := s.gmEpoch
            spillD := false, spillR := false, fillD := false, fillR := false
            wdog := 32 * s.get (Adr.TIL_WDCFG t) Bits.TIL_WDCFG_RELOAD
            exc := if s.get cx Bits.CAL_CTX_CTL_DFLT = 1 then
              some { code := 3, faddr := (s.reg (Adr.CAL_CTX_DFADDR t x)).setWidth 32, defer := true } else none } with
          ready := mset s.ready t ((s.readyList t).filter (· != x)) }
        [cx, ce] (fun u =>
          u.reg cx = putFld (putFld (putFld (s.reg cx) Bits.CAL_CTX_CTL_STATE 3) Bits.CAL_CTX_CTL_ENG (engOf g))
            Bits.CAL_CTX_CTL_DFLT 0 ∧
          u.reg ce = putFld (putFld (putFld (s.reg ce) Bits.CAL_ENG_PLACED 1) Bits.CAL_ENG_CTX x) Bits.CAL_ENG_DECKV 0))

/-- R365, R367, R368: where the caller places the one READY context of a tile: on the lowest idle engine that may take
it, else, preempting, on the engine of lowest PRIO below its own, the highest-numbered among equals. Model's choices
it rests on: log entries 53 and 54. -/
def Obligations.CallerPlacesAContext : Prop :=
  ∀ (s : State) (t : Tile) (c : Fin 512), s.sleep t = 0 → s.tileFenced t = false → s.readyList t = [c.val] →
    let g (i : Nat) : Nat := 16 * t.val + i
    let prio (i : Nat) : Nat := s.ctxPrio t (s.ctxOf (g i))
    let may (i : Nat) : Prop := i < 16 ∧ getBit (s.ctxAff t c) i = true ∧
      getBit (s.get (Adr.CAL_CTL t) Bits.CAL_CTL_RUN) i = true ∧ s.inService (g i) = true ∧ s.drainsElsewhere t i c = false
    let idle (i : Nat) : Prop := may i ∧ s.placed (g i) = false
    let lower (i : Nat) : Prop := may i ∧ s.placed (g i) = true ∧ prio i < s.ctxPrio t c
    ∃ u, exec (.callerDecision t) s = .next u ∧
      let decked (i : Nat) : Prop := ∀ j, j < 16 →
        u.get (Adr.CAL_ENG t j) Bits.CAL_ENG_DECKV = (if j = i then 1 else 0) ∧
        u.get (Adr.CAL_ENG t j) Bits.CAL_ENG_DECK = (if j = i then c.val else 0)
      (∀ i, idle i → (∀ j, j < i → ¬ idle j) → decked i) ∧
      (∀ i, lower i → (∀ j, ¬ idle j) → (∀ j, lower j → prio i < prio j ∨ (prio i = prio j ∧ j ≤ i)) →
        decked i ∧ ((s.eng (g i)).switchTo = none → (u.eng (g i)).switchTo = some .head)) ∧
      ((∀ j, ¬ idle j ∧ ¬ lower j) → ∀ j, j < 16 →
        (may j → u.get (Adr.CAL_ENG t j) Bits.CAL_ENG_DECKV = 1 ∧ u.get (Adr.CAL_ENG t j) Bits.CAL_ENG_DECK = c.val) ∧
        (¬ may j → u.get (Adr.CAL_ENG t j) Bits.CAL_ENG_DECKV = 0)) ∧
      (∀ i, i < 16 → (u.eng (g i)).firm = if 1 < (s.eng (g i)).firm then (s.eng (g i)).firm - 1 else (s.eng (g i)).firm) ∧
      u.mem = s.mem ∧ u.ready = s.ready

/-- R368 to R372, R376, R377: a preload reads the on-deck context's frame and cells, a drain writes the outgoing
one's, and an extended state goes to its save area; a context whose frame or save area fails is LOST and reported.
Model's choices it rests on: log entries 55 and 56. -/
def Obligations.ContextsReadAndWritten : Prop :=
  ∀ (s : State) (g : Eng) (c x : Nat), Sound s →
    let e := s.eng g
    let t := tileOf g
    let ce := Adr.CAL_ENG t (engOf g)
    let cells (p : Word) (n : Nat) : List Cell :=
      (List.range n).map (fun i => { val := BitVec.ofNat 32 (memValue s (stkAdr g (cellForm p i)) 4) })
    let good (p : Word) (n : Nat) : Prop := areaOk p = true ∧ ∀ i, i < n → Clean s (stkAdr g (cellForm p i)) 4
    let bytes (l : List Cell) : List Byte := wordBytes (vals l).reverse
    let lost (i : Instr) (v : State) (regs : List Nat) : Prop :=
      Leads i s { v with ready := mset s.ready t ((s.readyList t).filter (· != c))
                         reports := s.reports ++ [{ cls := 1, src := 256 * t + 8, det := BitVec.ofNat 32 c, cyc := s.fbclk }] }
        (Adr.CAL_CTX_CTL t c :: regs) (fun u => u.ctxState t c = 5)
    let fits (p : Word) (l : List Cell) (k : Nat) : Prop := l.length ≤ k ∧ (l ≠ [] → 4 * l.length ≤ spOff p ∧
      areaOk (spMove p (-(l.length : Int))) = true ∧
      s.writeFails (stkAdr g (spMove p (-(l.length : Int)))) (4 * l.length) = false)
    (s.inService g = true → s.get ce Bits.CAL_ENG_DECKV = 1 → s.get ce Bits.CAL_ENG_DECK = c → s.ctxState t c = 2 →
      e.idle = .empty → s.drainsElsewhere t (engOf g) c = false → s.ownedElsewhere g c = false →
      let tsbp : Word := (s.reg (Adr.CAL_CTX_TSBP t c)).setWidth 32
      let dl : Word := (s.reg (Adr.CAL_CTX_DSLIM t c)).setWidth 32
      let rl : Word := (s.reg (Adr.CAL_CTX_RSLIM t c)).setWidth 32
      framePlace g (pswGet tsbp Bits.TSBP_FRAME * 64) = some x → Clean s x 16 →
      let w (i : Nat) : Word := (memWords s x 4).getD i 0
      let n := min 8 (stkDepth (w 2) dl)
      let m := min 4 (stkDepth (w 3) rl)
      good (w 2) n → good (w 3) m →
      let bank : Bank := { dsp := w 2, rsp := w 3, dslim := dl, rslim := rl, ds := cells (w 2) n, rs := cells (w 3) m }
      exec (.preload g) s = .next (s.setEng g { e with
        idle := .loaded c { pc := w 0, psw := w 1 &&& 0x87030007, tsbp := tsbp, bank := bank } })) ∧
    (s.inService g = true → s.get ce Bits.CAL_ENG_DECKV = 1 → s.get ce Bits.CAL_ENG_DECK = c → s.ctxState t c = 2 →
      e.idle = .empty → s.drainsElsewhere t (engOf g) c = false → s.ownedElsewhere g c = false →
      framePlace g (pswGet ((s.reg (Adr.CAL_CTX_TSBP t c)).setWidth 32) Bits.TSBP_FRAME * 64) = none →
      lost (.preload g) s []) ∧
    (∀ a : Arch, e.idle = .draining c a → framePlace g (pswGet a.tsbp Bits.TSBP_FRAME * 64) = none → s.ctxState t c ≠ 2 →
      lost (.bankDrain g) (s.setEng g { e with idle := .empty }) []) ∧
    (∀ a : Arch, e.idle = .draining c a → framePlace g (pswGet a.tsbp Bits.TSBP_FRAME * 64) = some x →
      let b := a.bank
      let top := min 4 (stkDepth b.dsp b.dslim)
      let d := stkAdr g (spMove b.dsp (-(b.ds.length : Int)))
      let r := stkAdr g (spMove b.rsp (-(b.rs.length : Int)))
      let bad (i : Nat) : Bool := (b.ds[i]?).any (fun y => y.poison)
      fits b.dsp b.ds 32 → fits b.rsp b.rs 16 → s.writeFails x 16 = false → s.writeFails (x + 0x18) 20 = false →
      top ≤ b.ds.length →
      ∃ u, exec (.bankDrain g) s = .next u ∧ (u.eng g).idle = .empty ∧
        u.reg (Adr.CAL_CTX_DSLIM t c) = b.dslim.setWidth 64 ∧ u.reg (Adr.CAL_CTX_RSLIM t c) = b.rslim.setWidth 64 ∧
        u.reg (Adr.CAL_CTX_TSBP t c) = a.tsbp.setWidth 64 ∧
        ∀ y, memRd u.mem y = laid (laid (laid (laid (memRd s.mem) d (bytes b.ds)) r (bytes b.rs)) x
          (wordBytes [a.pc, a.psw, b.dsp, b.rsp])) (x + 0x18)
          (wordBytes ((List.range 4).map (fun i => if i < top ∧ ¬ bad i then (vals b.ds).getD i 0 else 0) ++
            [BitVec.ofNat 32 (((List.range top).map (fun i => bnat (bad i) * 2 ^ (8 + i))).sum + top)])) y) ∧
    (s.get ce Bits.CAL_ENG_XOWNV = 1 → s.get ce Bits.CAL_ENG_XOWN = c → s.placedElsewhere g c = true →
      (s.saveArea g c = some x → s.writeFails x 48 = false → (∀ i, i < 48 → inChannels (x + i) = false) →
        ∃ u, exec (.xsaveWriteback g) s = .next u ∧ u.get ce Bits.CAL_ENG_XOWNV = 0 ∧
          u.bit (Adr.CAL_CTX_XSAVE t c) 0 = true ∧ Wrote s u x (wordBytes (extCells e.arch.ext))) ∧
      (s.saveArea g c = none ∨ (s.saveArea g c = some x ∧ s.writeFails x 48 = true) → lost (.xsaveWriteback g) s [ce] ∧
        ∃ u, exec (.xsaveWriteback g) s = .next u ∧ u.get ce Bits.CAL_ENG_XOWNV = 0))

/-! ### Doorbells -/

/-- R421, R425 to R433, R435 to R438, R440, R442, R443, R445, R446: a ring on its way, its answer, what it meets at
the doorbell unit, whom it wakes, claims, and writes of descriptors. Model's choices it rests on: log entries 20, 64
and 117. -/
def Obligations.DoorbellsRingPendAndAreClaimed : Prop :=
  ∀ (s : State) (who : Initiator) (t : Tile) (src : BitVec 12) (v : Word) (w : DWord),
    let n := src.toNat
    let a := Adr.BLK_DBDESC n
    let d := s.reg a
    let home := fldOf d Bits.BLK_DBDESC_TILE
    let pend (t : Nat) : Nat := Adr.TIL_PEND t (n / 64)
    let rep (t : Nat) : Nat := Adr.TIL_REP t (n / 64)
    let one (p : Bool) (r : DWord) : DWord := putFld r ⟨n % 64, 1⟩ (bnat p)
    let mask := fldOf d Bits.BLK_DBDESC_MASK
    let queued (at_ : Nat) : State :=
      { s with rings := s.rings ++ [⟨v.toNat % 4096, ringerOf who (s.ringOf who), some (who, s.hostNow, at_)⟩] }
    let asks : Prop := who = .host ∨ who = .debug ∨ ∃ g, who = .engine g
    let own : Prop := ∃ g, who = .engine g ∧ tileOf g = t ∧ v.toNat % 4096 ≠ 0xFFF ∧
      s.get (Adr.BLK_DBDESC (v.toNat % 4096)) Bits.BLK_DBDESC_TILE = t
    let awake (h : Nat) : Engine :=
      if tileOf h = home ∧ getBit mask (engOf h) = true ∧ (s.eng h).hold = .waiti then { s.eng h with hold := .none } else s.eng h
    let pends (c : Instr) (v : State) : Prop := ∃ u, exec c s = .next u ∧
      (∃ r en, u = { v with regs := r, engines := en }) ∧ (∀ h, u.eng h = awake h) ∧
      (∀ b, b ∉ [pend home, rep home] → u.reg b = s.reg b) ∧
      u.reg (pend home) = one true (s.reg (pend home)) ∧ u.reg (rep home) = one (s.pendBit home n) (s.reg (rep home))
    let kept : DWord := w &&& 0xFEF001FF0000FFFF
    (Accepts s who .all 0 0 Adr.BLK_DOORBELL →
      (asks → exec (.blkDoorbell who v) s = .next (queued Adr.BLK_DOORBELL)) ∧
      (¬ asks → exec (.blkDoorbell who v) s = .next (({ s with
        rings := s.rings ++ [⟨v.toNat % 4096, ringerOf who (s.ringOf who), none⟩] } : State).answer who .ok))) ∧
    (Accepts s who .all t 0 (Adr.TIL_DOORBELL t) →
      (asks → ¬ own → exec (.tilDoorbell who t v) s = .next (queued (Adr.TIL_DOORBELL t))) ∧
      (∀ g u, who = .engine g → own →
        exec .doorbellRing { s with rings := [⟨v.toNat % 4096, .engine g (s.eng g).effRing, none⟩] } = .next u →
        exec (.tilDoorbell who t v) s = .next ({ u with rings := s.rings }.answer who .ok))) ∧
    (∀ r rest, s.rings = r :: rest → r.src = n → r.reply = none →
      let s0 : State := { s with rings := rest }
      let notes (f : Fld) : Prop := exec .doorbellRing s = .next (s0.put Adr.BLK_DBSTAT f 1)
      let reserved : Prop := n < 1024 ∧ s.mode ≠ 1 ∧ s.mode ≠ 2
      let passes : Prop := match r.by_ with
        | .hw => n ≠ 0xFFF
        | .letter => 1024 ≤ n ∧ n ≠ 0xFFF ∧ fldOf d Bits.BLK_DBDESC_REMOTE = 1
        | .engine _ ring => n ≠ 0xFFF ∧ ¬ reserved ∧ (1024 ≤ n → ring ≤ fldOf d Bits.BLK_DBDESC_WRING)
        | _ => n ≠ 0xFFF ∧ ¬ reserved
      let woken := if (s.sleep home = 1 ∨ s.sleep home = 2) ∧ home ∉ s.wakes then s.wakes ++ [home] else s.wakes
      s.mode ≤ 4 →
      (n = 0xFFF → r.by_ ≠ .letter → exec .doorbellRing s = .next s0) ∧
      (n ≠ 0xFFF → r.by_ ≠ .hw → r.by_ ≠ .letter → reserved → notes Bits.BLK_DBSTAT_HWREF) ∧
      (∀ g ring, r.by_ = .engine g ring → n ≠ 0xFFF → 1024 ≤ n → fldOf d Bits.BLK_DBDESC_WRING < ring →
        notes Bits.BLK_DBSTAT_RINGREF) ∧
      (r.by_ = .letter → n < 1024 ∨ n = 0xFFF ∨ fldOf d Bits.BLK_DBDESC_REMOTE = 0 → notes Bits.BLK_DBSTAT_REMREF) ∧
      (passes → fldOf d Bits.BLK_DBDESC_EN = 0 → notes Bits.BLK_DBSTAT_DISHIT) ∧
      (passes → fldOf d Bits.BLK_DBDESC_EN = 1 →
        (s.sleep home = 3 ∨ s.tileFenced home = true → notes Bits.BLK_DBSTAT_NORUN) ∧
        (s.sleep home ≠ 3 → s.tileFenced home = false →
          (fldOf d Bits.BLK_DBDESC_MODE = 0 → pends .doorbellRing { s0 with wakes := woken }) ∧
          (fldOf d Bits.BLK_DBDESC_MODE = 1 →
            TakesEvent .doorbellRing s { s0 with wakes := woken } home (fldOf d Bits.BLK_DBDESC_CTX) 1 n)))) ∧
    (∀ r rest x id p u, s.rings = r :: rest → r.reply = some (x, id, p) →
      exec .doorbellRing { s with rings := { r with reply := none } :: rest } = .next u →
      exec .doorbellRing s = .next (u.replyLate x id .ok p) ∧
      (x = .host → u.replyLate x id .ok p = (u.answer .host .ok).hostDone id .ok 0) ∧
      (∀ g y, x = .engine g → (u.eng g).waitResp.find? (fun z => z.faddr.toNat == p) = some y →
        u.replyLate x id .ok p =
          (u.answer x .ok).setEng g { u.eng g with waitResp := (u.eng g).waitResp.erase y })) ∧
    (s.sends who = false → exec (.tilClaim who t src) s = .next s) ∧
    (Reads s who (Adr.TIL_CLAIM t n) →
      let pending : Prop := n ≠ 0xFFF ∧ s.pendBit t n = true
      let mine (e : Nat) : Prop := pending ∧ getBit mask e = true
      let value : DWord := BitVec.ofNat 64 (bnat (s.repBit t n) * 4096 + n)
      let gives (x : DWord) : Prop := exec (.tilClaim who t src) s = .next (s.answer who .ok x)
      (who = .debug → (pending ∧ mask ≠ 0 → gives value) ∧ (¬ (pending ∧ mask ≠ 0) → gives 0xFFF)) ∧
      (who ≠ .debug → (∀ g, who = .engine g → tileOf g ≠ t ∨ ¬ mine (engOf g)) → gives 0xFFF) ∧
      (∀ g, who = .engine g → tileOf g = t → mine (engOf g) →
        Leads (.tilClaim who t src) s (s.answer who .ok value) [pend t, rep t] (fun u =>
          u.reg (pend t) = one false (s.reg (pend t)) ∧ u.reg (rep t) = one false (s.reg (rep t))))) ∧
    (n = 0xFFF → s.targetCode who a true = .ok → (∀ t, regTile a = some t → s.sleep t = 0) →
      exec (.dbdescWrite who src w) s = .next (s.reply who .err a)) ∧
    (Accepts s who .r0 0 0 a → n ≠ 0xFFF →
      let x := Instr.dbdescWrite who src w
      let goes := fldOf w Bits.BLK_DBDESC_TILE
      let ctx := fldOf w Bits.BLK_DBDESC_CTX
      (12 ≤ goes → exec x s = .next ((s.put Adr.BLK_DBSTAT Bits.BLK_DBSTAT_DESCREF 1).answer who .ok)) ∧
      (goes < 12 →
        (s.pendBit home n = false ∨ (fldOf w Bits.BLK_DBDESC_MODE = 0 ∧ goes = home) →
          exec x s = .next ((s.setReg a kept).answer who .ok)) ∧
        (s.pendBit home n = true → fldOf w Bits.BLK_DBDESC_MODE = 0 → goes ≠ home → home < 12 →
          Leads x s (s.answer who .ok) [a, pend home, rep home, pend goes, rep goes] (fun u => u.reg a = kept ∧
            u.pendBit home n = false ∧ u.repBit home n = false ∧ u.pendBit goes n = true ∧
            u.repBit goes n = s.repBit home n)) ∧
        (s.pendBit home n = true → fldOf w Bits.BLK_DBDESC_MODE = 1 → home < 12 →
          (s.sleep goes = 3 ∨ s.tileFenced goes = true → Leads x s (s.answer who .ok) [a, pend home, rep home] (fun u =>
            u.reg a = kept ∧ u.pendBit home n = false ∧ u.repBit home n = false)) ∧
          (s.sleep goes ≠ 3 → s.tileFenced goes = false →
            ∃ u, exec x s = .next u ∧ u.reg a = kept ∧ u.pendBit home n = false ∧ u.repBit home n = false ∧
              (s.ctxState goes ctx = 1 → u.ctxState goes ctx = 2 ∧
                u.readyList goes = (s.readyList goes).filter (· != ctx) ++ [ctx]) ∧
              (s.ctxState goes ctx = 2 ∨ s.ctxState goes ctx = 3 ∨ s.ctxState goes ctx = 4 →
                u.get (Adr.CAL_CTX_EVENT goes ctx) Bits.CAL_CTX_EVENT_SRC = n)))))

/-! ### The angle base, comparators and time -/

/-- R55, R56, R58 to R60, R62 to R64, R72: levels that have not held for FILT + 1 cycles, a count by its direction and
INV, a double change, an accepted index with ZEN, an SSI sample with its parity and code, and standstill. Model's
choices it rests on: log entries 14, 19, 46, 47, 48 and 109. -/
def Obligations.EncodersCountAndIndex : Prop :=
  ∀ (s : State) (e : Enc) (a b z : Pin) (high : Bool) (w : BitVec 37),
    let x := s.enc e
    let st := Adr.ANG_STAT e
    let cfg := s.reg (Adr.ANG_CFG e)
    let holds (p : Pin) : Bool := decide (fldOf cfg Bits.ANG_CFG_FILT + 1 ≤ p.held.toNat)
    let la : Bool := if holds a then a.high else x.a
    let lb : Bool := if holds b then b.high else x.b
    let n := (s.reg (Adr.ANG_COUNT e)).toNat
    let report (bit src : Nat) : List Report :=
      if s.bit st bit then [] else [{ cls := 0, src := src, det := BitVec.ofNat 32 e, cyc := s.fbclk }]
    let cpr := s.get (Adr.ANG_CPR e) Bits.ANG_CPR_CPR
    let step : Nat := if cpr = 0 then 0 else (2 ^ 32 + cpr / 2) / cpr
    let quad : Prop := fldOf cfg Bits.ANG_CFG_TYPE = 0
    let ssi := s.reg (Adr.ANG_SSI e)
    let mt := fldOf ssi Bits.ANG_SSI_MT
    let bits := fldOf ssi Bits.ANG_SSI_BITS
    (holds a = false → holds b = false → exec (.quadCount e a b) s = .next s ∧
      (holds z = false → exec (.index e a b z) s = .next s)) ∧
    let comes (a b : Bool) : Prop := x.z = true ∧ x.zcond = false ∧ (fldOf cfg Bits.ANG_CFG_ZQUAL = 0 ∨ (a = true ∧ b = true))
    (quad → ¬ comes la lb → (la != x.a) ≠ (lb != x.b) →
      let fwd : Bool := decide (la = !x.b ∧ lb = x.a) != decide (fldOf cfg Bits.ANG_CFG_INV = 1)
      let by_ (k : Int) : Int := if fwd then k else -k
      ∃ u, exec (.quadCount e a b) s = .next u ∧ (u.enc e).a = la ∧ (u.enc e).b = lb ∧
        u.reg (Adr.ANG_COUNT e) = BitVec.ofNat 64 (ofSigned 32 (n + by_ 1)) ∧
        (u.enc e).base = ofSigned 44 (x.base + by_ step) ∧ (u.enc e).adv = 0 ∧ (u.enc e).step = step ∧
        (u.enc e).last = some 0 ∧ u.get st Bits.ANG_STAT_DIR = bnat (!fwd) ∧
        u.reg (Adr.ANG_ANGLE e) = BitVec.ofNat 64 ((u.enc e).base / 4096 % 2 ^ 32)) ∧
    (quad → ¬ comes la lb → la = !x.a → lb = !x.b → ∃ u, exec (.quadCount e a b) s = .next u ∧
      (u.enc e).base = x.base ∧ u.reg (Adr.ANG_COUNT e) = s.reg (Adr.ANG_COUNT e) ∧ u.bit st 4 = true ∧
      u.reports = s.reports ++ report 4 0x4030) ∧
    (quad → holds z = true → z.high = true → la = x.a → lb = x.b → x.zcond = false → fldOf cfg Bits.ANG_CFG_ZEN = 1 → step ≠ 0 →
      fldOf cfg Bits.ANG_CFG_ZQUAL = 0 ∨ (x.a = true ∧ x.b = true) →
      ∃ u, ∃ d : Int, exec (.index e a b z) s = .next u ∧ -(2 ^ 31) ≤ d ∧ d < 2 ^ 31 ∧
        ((x.pos : Int) + d) % 2 ^ 32 = (4096 * s.get (Adr.ANG_ZOFF e) Bits.ANG_ZOFF_ZOFF : Nat) ∧
        (u.enc e).base = ofSigned 44 (x.base + d) ∧ u.get st Bits.ANG_STAT_HOMED = 1 ∧
        u.rings = s.rings ++ [⟨e, .hw, none⟩] ∧
        u.get (Adr.ANG_ZERR e) Bits.ANG_ZERR_ZERR =
          ofSigned 16 (max (-32768) (min ((2 * d + (step : Int)) / (2 * (step : Int))) 32767))) ∧
    (fldOf cfg Bits.ANG_CFG_TYPE = 1 →
      exec (.ssiFrameStart e high) s = .next (s.setEnc e { x with frame := some (high, 0) }) ∧
      (∀ high since, x.frame = some (high, since) → bits ≤ 32 → mt ≤ 12 →
        let par := fldOf ssi Bits.ANG_SSI_PAR
        let ones (k : Nat) : Nat := (List.range k).countP (fun i => w.getLsbD i)
        let good : Prop := high = true ∧ (par = 1 → ones (mt + bits + 1) % 2 = 0)
        let gray : Prop := fldOf ssi Bits.ANG_SSI_GRAY = 1
        let sent (i : Nat) : Bool := if gray then decide ((ones (mt + bits + par) - ones (i + par)) % 2 = 1) else w.getLsbD (i + par)
        (good → ∃ u, exec (.ssiSample e w) s = .next u ∧ (u.enc e).frame = none ∧ (u.enc e).sample = some since ∧
          (∀ i, i < 32 → ((u.enc e).base).testBit i = if i < 32 - bits then false else sent (i - (32 - bits))) ∧
          (mt ≠ 0 → (u.enc e).base < 2 ^ (32 + mt) ∧ ∀ i, i < mt → ((u.enc e).base).testBit (32 + i) = sent (bits + i)) ∧
          (mt = 0 → x.base < 2 ^ 44 → if x.sample = none then (u.enc e).base / 2 ^ 32 = x.base / 2 ^ 32 else
            (toSigned 44 (ofSigned 44 (((u.enc e).base : Int) - x.base))).natAbs ≤ 2 ^ 31) ∧
          u.get st Bits.ANG_STAT_HOMED = 1 ∧ u.reg (Adr.ANG_COUNT e) = BitVec.ofNat 64 ((n + 1) % 2 ^ 32)) ∧
        (¬ good → ∃ u, exec (.ssiSample e w) s = .next u ∧ (u.enc e) = { x with frame := none } ∧ u.bit st 6 = true ∧
          u.reports = s.reports ++ report 6 0x4032))) ∧
    (s.get (Adr.ANG_STILLT e) Bits.ANG_STILLT_STILLT ≠ 0 → s.still e = false → fldOf cfg Bits.ANG_CFG_TYPE ≠ 3 →
      ∃ u, exec (.standstillEntry e) s = .next u ∧ u.get st Bits.ANG_STAT_STILL = 1 ∧ u.reg (Adr.ANG_VEL e) = 0 ∧
        (u.enc e).base = x.base)

/-- R54, R65, R68, R78, R79, R82, R83, R87: one FBCLK cycle puts every angle on the bus and fires the enabled
comparators whose value the bus crosses in their direction; writes of CPR and of a comparator; a predictive wake that
was early. Model's choices it rests on: log entries 18, 21 and 110. -/
def Obligations.ComparatorsFire : Prop :=
  ∀ (s : State) (who : Initiator) (e : Enc) (t : Tile) (k : Fin 16) (v : Word),
    (s.standby = false → ∃ u, exec .angleUpdate s = .next u ∧ u.clock.since = s.clock.since + 1 ∧ u.rebased = [] ∧
      u.fbclk = s.fbclk + 1 ∧ u.hwFenced = [] ∧
      u.bus = (List.range 4).map (fun e => (e, u.angle e)) ∧
      ∀ (t : Tile) (k : Fin 16),
        let ctl := s.reg (Adr.ANG_CMP_CTL t k)
        let val := (s.reg (Adr.ANG_CMP_VAL t k)).toNat
        let src := fldOf ctl Bits.ANG_CMP_CTL_SRC
        let past (a : Nat) : Prop := if fldOf ctl Bits.ANG_CMP_CTL_MODE = 1 then (a + 2 ^ 32 - val) % 2 ^ 20 < 2 ^ 19
          else (a + 2 ^ 32 - val) % 2 ^ 32 < 2 ^ 31
        let was := mget (mget 0 s.bus src) s.rebased (16 * t + k)
        let dir := fldOf ctl Bits.ANG_CMP_CTL_DIR
        let fires : Prop := fldOf ctl Bits.ANG_CMP_CTL_EN = 1 ∧ s.sleep t ≠ 3 ∧ s.tileFenced t = false ∧
          ((¬ past was ∧ past (u.angle src) ∧ (dir = 0 ∨ dir = 2)) ∨
            (past was ∧ ¬ past (u.angle src) ∧ dir ≠ 0))
        (fires → u.get (Adr.ANG_CMP_STAT t k) Bits.ANG_CMP_STAT_FIRED = 1 ∧
          (s.get (Adr.ANG_CMP_STAT t k) Bits.ANG_CMP_STAT_FIRED = 1 →
            u.get (Adr.ANG_CMP_STAT t k) Bits.ANG_CMP_STAT_OVER = 1) ∧
          (fldOf ctl Bits.ANG_CMP_CTL_ACTION = 0 → ⟨16 + 16 * t + k, .hw, none⟩ ∈ u.rings)) ∧
        (¬ fires → u.reg (Adr.ANG_CMP_STAT t k) = s.reg (Adr.ANG_CMP_STAT t k) ∧
          u.reg (Adr.ANG_CMP_VAL t k) = s.reg (Adr.ANG_CMP_VAL t k))) ∧
    (∀ j n, (s.power t).pwake = some j → s.get (Adr.ANG_PWCNT t) Bits.ANG_PWCNT_FALSE = n → n < 0xFFFF →
      exec (.predictiveWakeTimeout t) s = .next
        ((s.setPower t { s.power t with pwake := none }).put (Adr.ANG_PWCNT t) Bits.ANG_PWCNT_FALSE (n + 1))) ∧
    (Accepts s who .r0 0 0 (Adr.ANG_CPR e) → (s.reg (Adr.ANG_CPR e)).toNat < 2 ^ 21 → 4 ≤ v.toNat →
      v.toNat ≤ 0x100000 →
      let x := s.enc e
      let n := toSigned 32 (s.reg (Adr.ANG_COUNT e)).toNat
      let step : Nat := (2 ^ 32 + v.toNat / 2) / v.toNat
      ∃ u, exec (.angCprWrite who e v) s = .next u ∧ u.get (Adr.ANG_CPR e) Bits.ANG_CPR_CPR = v.toNat ∧
        (x.cprSet = true → u.enc e = x) ∧
        (x.cprSet = false → s.encType e = 0 → s.get (Adr.ANG_STAT e) Bits.ANG_STAT_HOMED = 0 →
          u.enc e = { x with cprSet := true, base := ofSigned 44 (n * step), adv := 0, step := step })) ∧
    (∀ r : Fin 4, Accepts s who .r1 t 0 (Adr.ANG_CMP_CTL t k + 4 * r.val) →
      (r.val < 3 → ∃ u, exec (.angCmpWrite who t k r v) s = .next u ∧
        u.rebased = mset s.rebased (16 * t + k) (u.angle (u.cmpSrc t k)) ∧
        (r.val = 1 → (u.reg (Adr.ANG_CMP_VAL t k)).setWidth 32 = v)) ∧
      (r.val = 3 → ∃ u, exec (.angCmpWrite who t k r v) s = .next u ∧ u.rebased = s.rebased ∧
        ∀ i, i < 3 → u.bit (Adr.ANG_CMP_STAT t k) i = (s.bit (Adr.ANG_CMP_STAT t k) i && !v.getLsbD i)))

/-- R75 to R77, R91 to R94: the count of an SCLK tick, writes of time, letters sent, received and missing. Model's
choices it rests on: log entries 49, 50, 107 and 118. -/
def Obligations.SystemTimeCountsAndFollows : Prop :=
  ∀ (s : State) (who : Initiator) (v : DWord) (p : Port),
    (Accepts s who .r0 0 0 Adr.ANG_TIMESET →
      (s.mode ≤ 2 → ∃ u, exec (.angTimeset who v) s = .next u ∧ u.reg Adr.ANG_TIME = v ∧ u.time = v ∧ u.clock.since = 0 ∧
        u.resp = some { who := who, code := .ok } ∧ ∀ a, a ≠ Adr.ANG_TIME → u.reg a = s.reg a) ∧
      (s.mode = 3 ∨ s.mode = 4 → exec (.angTimeset who v) s = .next (s.answer who .ok))) ∧
    (s.poreset = false →
      let x : Int := 40 * 65536 + s.clock.frac + ((s.reg Adr.ANG_TRIM).setWidth 32).toInt
      ∃ u, exec .systemTimeTick s = .next u ∧ u.reg Adr.ANG_TIME = s.reg Adr.ANG_TIME + BitVec.ofNat 64 (x / 65536).toNat ∧
        u.clock.since = 0 ∧ u.clock.frac = (x % 65536).toNat) ∧
    (s.get Adr.ANG_BCCTL Bits.ANG_BCCTL_ROLE = 1 → s.standby = false →
      ∃ u, exec .timeLetterSend s = .next u ∧ ∀ q : Port, s.rlyState q = 3 →
        (getBit (s.get Adr.RLY_TIME Bits.RLY_TIME_FWD) q = false → u.relay q = s.relay q) ∧
        (getBit (s.get Adr.RLY_TIME Bits.RLY_TIME_FWD) q = true → ∃ o,
          (u.relay q).urgent = (s.relay q).urgent ++ [o] ∧ o.let_.kind = 4 ∧ o.let_.src = s.postcode ∧
          o.let_.payload.length = 48 ∧ o.let_.payload.take 8 = leBytes 8 s.time.toNat ∧ o.corr = some (0, s.time))) ∧
    (∀ (f : List Byte) (elapsed residence : BitVec 16) (l : Letter),
      let t := s.reg Adr.RLY_TIME
      let lat := s.get (Adr.RLY_LAT p) Bits.RLY_LAT_LAT
      let corr := leVal ((l.payload.drop 40).take 4)
      let ref : DWord := BitVec.ofNat 64 (leVal (l.payload.take 8) + (corr + lat / 16 + elapsed.toNat))
      let err := (s.time - ref).toInt
      s.rlyState p = 3 → 0 < s.get (Adr.RLY_CRED p) (freeFld (frameUrgent f)) → parseLetter f = some l → l.kind = 4 →
      fldOf t Bits.RLY_TIME_INEN = 1 → fldOf t Bits.RLY_TIME_INPORT = p → s.get Adr.ANG_BCCTL Bits.ANG_BCCTL_ROLE = 2 →
      lat % 16 = 0 →
      ∃ u, exec (.timeLetterReceive p f elapsed residence) s = .next u ∧ u.stepTime = false ∧ u.clock.lost = false ∧
        (s.stepTime = true → s.mode ≤ 2 → u.reg Adr.ANG_TIME = ref ∧ u.reg Adr.ANG_TRIM = 0 ∧ u.clock.err = 0) ∧
        (s.stepTime = false ∨ 3 ≤ s.mode → u.reg Adr.ANG_TIME = s.reg Adr.ANG_TIME ∧ u.clock.err = err ∧
          u.reg Adr.ANG_TRIM = BitVec.ofNat 64 (ofSigned 32 (if 2 < err then -65536 else if err < -2 then 65536 else 0)))) ∧
    (s.get Adr.ANG_BCCTL Bits.ANG_BCCTL_ROLE = 2 → ∃ u, exec .broadcastTimeout s = .next u ∧ u.clock.lost = true ∧
      ∀ e : Enc, s.encType e = 2 → u.bit (Adr.ANG_STAT e) 7 = true)

/-! ### The block's mode and its commit groups -/

/-- R29 to R32, R36, R40 to R44: the transitions of BLK_MODE and their refusals; GO, late or waiting, accepted or
rejected; DISCARD. Model's choices it rests on: log entries 17 and 104. -/
def Obligations.ModesAndCommitGroups : Prop :=
  ∀ (s : State) (who : Initiator) (v : Word) (c : Group) (t : Tile),
    let m := v.toNat % 8
    let key : Prop := v.toNat / 2 ^ 24 = 0x5A
    let still : Prop := ∀ e, e < 4 → getBit (s.get Adr.ANG_CTL Bits.ANG_CTL_STILLMASK) e = true → s.still e = true
    let allowed : Prop := s.fatal = false ∧ ((s.mode, m) ∈ [(1, 3), (1, 4), (2, 1), (2, 3), (2, 4), (4, 3)] ∨
      (still ∧ (s.mode, m) ∈ [(1, 2), (4, 1), (4, 2)]))
    let a := groupCommit c
    let writers (c : Group) : RegPerm := match c with
      | .margin _ => .r0
      | _ => .r1
    let reaches (c : Group) : Prop := Accepts s who (writers c) 0 0 (groupCommit c)
    let waits (c : Group) : Prop := exec (.commitGo who c) s = .next ((s.put (groupCommit c) cPending 1).answer who .ok)
    let taken (c : Group) : Prop := ∃ u, exec (.commitGo who c) s = .next u ∧
      (∀ r ∈ groupRegs c, u.reg r = s.shadowReg r) ∧ u.get (groupCommit c) cSeq = (s.get (groupCommit c) cSeq + 1) % 256 ∧
      u.get (groupCommit c) cResult = 1 ∧ u.get (groupCommit c) cPending = 0
    let pair := s.shadowReg (Adr.MRG_PAIR t)
    (Accepts s who .mode 0 0 Adr.BLK_MODE → v.getLsbD 8 = false →
      (¬ key ∨ m = s.mode → exec (.modeChange who v) s = .next (s.answer who .ok)) ∧
      (key → m ≠ s.mode → ¬ allowed →
        exec (.modeChange who v) s = .next ((s.put Adr.BLK_MODE Bits.BLK_MODE_REFUSED 1).answer who .ok)) ∧
      (key → m ≠ s.mode → allowed → ∃ u, exec (.modeChange who v) s = .next u ∧ u.mode = m ∧
        (m = 4 → ∀ g, u.gm g = false ∧ u.gmEpoch = s.gmEpoch + 1) ∧ u.mem = s.mem)) ∧
    (reaches c → s.groupPending c = true →
      exec (.commitGo who c) s = .next ((s.put a cLate 1).answer who .ok)) ∧
    (s.groupPending c = false → s.mode ≠ 0 → reaches c →
      (∀ n, c = .reel n → waits c) ∧ (∀ u, c = .figFmt u → waits c) ∧
      (c = .route → s.routeCheck = true → taken c) ∧
      (c = .route → s.routeCheck = false → ∃ u, exec (.commitGo who c) s = .next u ∧ u.get a cResult = 2 ∧
        ∀ r ∈ groupRegs c, u.reg r = s.reg r)) ∧
    (s.mode = 0 → s.groupPending c = false → reaches c → ∀ n, c = .reel n → taken c) ∧
    (s.groupPending (.margin t) = false → reaches (.margin t) → s.mode ≠ 0 → s.sleep t = 0 →
      (50 < fldOf pair Bits.MRG_PAIR_VT ∨ fldOf pair Bits.MRG_PAIR_N < 24 ∨ 48 < fldOf pair Bits.MRG_PAIR_N →
        let r : State := (s.put (groupCommit (.margin t)) cResult 2).put (groupCommit (.margin t)) cPending 0
        exec (.commitGo who (.margin t)) s = .next
          (({ r with reports := s.reports ++ [{ cls := 0, src := 256 * t + 2, cyc := s.fbclk }] } : State).answer who .ok)) ∧
      (fldOf pair Bits.MRG_PAIR_VT ≤ 50 → 24 ≤ fldOf pair Bits.MRG_PAIR_N → fldOf pair Bits.MRG_PAIR_N ≤ 48 →
        s.worn t = true → s.eventTile t = false → ∃ u, exec (.commitGo who (.margin t)) s = .next u ∧
          u.get (groupCommit (.margin t)) cPending = 1 ∧ u.reg (Adr.MRG_PAIR t) = s.reg (Adr.MRG_PAIR t))) ∧
    (reaches c → ∃ u, exec (.commitDiscard who c) s = .next u ∧ u.get a cPending = 0 ∧
      (∀ r ∈ groupRegs c, u.shadowReg r = s.reg r) ∧ ∀ r, r ≠ a → u.reg r = s.reg r)

/-! ### The reels -/

/-- R204 to R209, R243: an addressing pass from a write of REEL_CTLn, its two frames, what the descriptors say, its
success, its retries and its third failure. Model's choices it rests on: log entry 72. -/
def Obligations.ReelAddressingPass : Prop :=
  ∀ (s : State) (who : Initiator) (n : Reel) (ok : Bool) (count : BitVec 8) (descs : List NodeDesc) (acks : BitVec 64)
    (loopNs : BitVec 16),
    let u := s.reel n
    let st := Adr.REEL_STAT n
    let lit : Prop := s.reelClock = true ∧ s.fatal = false ∧ s.reelFenced n = false ∧ u.pass = none
    let addr : List Byte := leBytes 1028 0 ++ leBytes 4 (crc32 (leBytes 1028 0))
    let begins (x : Instr) (v : State) : Prop := exec x s = .next v ∧ (v.reel n).pass = some {} ∧ (v.reel n).sent = addr ∧
      v.reelState n = 2
    let fails (x : Instr) (p : ReelPass) : Prop :=
      (p.fails < 2 → ∃ v, exec x s = .next v ∧ (v.reel n).pass = some { conf := false, fails := p.fails + 1 } ∧
        (v.reel n).sent = addr) ∧
      (p.fails = 2 → ∃ v, exec x s = .next v ∧ (v.reel n).pass = none ∧ (v.reel n).failed = true ∧ v.reelState n = 1 ∧
        v.bit st 2 = true)
    (Accepts s who .r1 0 0 (Adr.REEL_CTL n) →
      (s.reelEnabled n = true → ∃ v, exec (.reelAddr who n) s = .next v ∧ v.get st Bits.REEL_STAT_ADDRREF = 1 ∧
        (v.reel n).pass = u.pass) ∧
      (s.reelEnabled n = false → lit → ∃ v, begins (.reelAddr who n) v ∧ v.reelEnabled n = false) ∧
      (s.reelEnabled n = false → lit → u.passed = false → ∃ v, begins (.reelEn who n) v ∧ v.reelEnabled n = true) ∧
      (s.reelEnabled n = false → u.passed = true → s.bit (Adr.REEL_CTL n) 2 = false →
        ∃ v, exec (.reelEn who n) s = .next v ∧ v.reelEnabled n = true ∧
        (v.reel n).pass = u.pass)) ∧
    (∀ p, u.pass = some p → p.fails < 3 →
      (p.conf = false →
        (ok = false → fails (.addrFrameReturn n ok count descs loopNs) p) ∧
        (ok = true → descs.length = min 64 count.toNat →
          let k := descs.length
          let dly (i : Nat) : Nat := (descs.map (fun d => d.w2.toNat % 256)).getD i 0
          let sum (i : Nat) : Nat := ((List.range i).map dly).sum
          let twice (i : Nat) : Int := 2 * ((i + 1 : Int) * ((loopNs.toNat : Int) - sum k) + (k + 1 : Int) * sum i)
          let bad (d : NodeDesc) : Prop := d.w0.toNat % 4 ∉ [1, 2] ∨ ¬ (1 ≤ d.w1.toNat % 256 ∧ d.w1.toNat % 256 ≤ 128) ∨
            20 < d.w2.toNat % 256
          let body := (List.range 64).flatMap (fun i => leBytes 2 (s.get (Adr.REEL_CTL n) Bits.REEL_CTL_HOLD) ++
            leBytes 2 (if i < k then ((twice i + (k + 1 : Int)) / (2 * (k + 1 : Int))).toNat else 0) ++ leBytes 4 0)
          ∃ v, exec (.addrFrameReturn n ok count descs loopNs) s = .next v ∧
            v.get (Adr.REEL_LOOP n) Bits.REEL_LOOP_LOOP = loopNs.toNat ∧ v.get st Bits.REEL_STAT_NODES = k ∧
            (v.reel n).pass = some { p with conf := true } ∧
            (v.bit st 10 = true ↔ s.bit st 10 = true ∨ ∃ d ∈ descs, bad d) ∧
            (v.bit st 11 = true ↔ s.bit st 11 = true ∨ 64 < count.toNat) ∧
            (sum k ≤ loopNs.toNat → (v.reel n).sent = body ++ leBytes 4 (crc32 body)) ∧
            ∀ i d, descs[i]? = some d → v.reg (Adr.REEL_NODE n i 0) = d.w0.setWidth 64 ∧
              v.reg (Adr.REEL_NODE n i 1) = d.w1.setWidth 64 ∧ v.reg (Adr.REEL_NODE n i 2) = d.w2.setWidth 64 ∧
              v.reg (Adr.REEL_NODE n i 3) = d.w3.setWidth 64)) ∧
      (p.conf = true →
        let all : Prop := ∀ i, i < s.get st Bits.REEL_STAT_NODES → acks.getLsbD i = true
        (ok = false ∨ ¬ all → fails (.confFrameReturn n ok acks) p) ∧
        (ok = true → all → s.get st Bits.REEL_STAT_NODES ≤ 64 → ∃ v, exec (.confFrameReturn n ok acks) s = .next v ∧
          (v.reel n).pass = none ∧ (v.reel n).passed = true ∧ (v.reel n).failed = false ∧ v.reelState n = 1)) ∧
      fails (.passTimeout n) p)

/-- R211 to R217, R220 to R227, R244: the start of a cycle and its header, by the clock, a trigger or a keep cycle,
the entry to CYCLE and its refusal by R227, the slots that go out, the slots that return, the end of a return, and
slots that software closes. Model's choices it rests on: log entries 26, 73, 74, 75 and 133. -/
def Obligations.ReelCyclesAndSlots : Prop :=
  ∀ (s : State) (who : Initiator) (n : Reel) (v : Word) (r : SlotReturn) (hdrGood : Bool) (hdr : Option Bool)
    (loopNs : BitVec 16),
    let u := s.reel n
    let st := Adr.REEL_STAT n
    let slots := (List.range 64).filter (fun p => s.slotEn n p)
    let no : Nat := (putFld (s.reg (Adr.REEL_CYCLE n)) ⟨0, 32⟩ ((s.get (Adr.REEL_CYCLE n) ⟨0, 32⟩ + 1) % 2 ^ 32)).toNat
    let soc := max (s.time.toNat + 100) u.exEnd
    let header (angle flags : Nat) : List Byte :=
      let b := leBytes 4 no ++ leBytes 4 angle ++ leBytes 4 soc ++ leBytes 2 (s.get (Adr.REEL_FIRE n) Bits.REEL_FIRE_FIRE) ++
        leBytes 1 flags
      b ++ leBytes 1 (crc8 b)
    let angleMode : Prop := s.get (Adr.REEL_PER n) Bits.REEL_PER_MODE = 1
    let turned := s.angle (s.get (Adr.REEL_AINC n) Bits.REEL_AINC_SRC)
    let closed := (s.reg (Adr.REEL_CLOSED n)).toNat
    let quiet : Prop := s.reelClock = true ∧ u.todo = [] ∧ s.groupPending (.reel n) = false
    let starts (x : Instr) (angle flags latched : Nat) (keep : Bool) : Prop := ∃ t, exec x s = .next t ∧
      (t.reg (Adr.REEL_CYCLE n)).toNat = no ∧ (t.reel n).todo = slots ∧ (t.reel n).latched = latched ∧
      (t.reel n).keep = keep ∧ (t.reel n).sent = header angle flags ∧ (t.reel n).soc = soc ∧ (t.reel n).begun = false ∧
      (t.reel n).trig = false ∧ (t.reel n).start = s.time.toNat ∧
      t.rings = s.rings ++ [⟨256 + 4 * n, .hw, none⟩] ∧ t.reelState n = 3 ∧
      (t.reel n).cycles.map (fun c => (c.no, c.slots)) =
        u.cycles.map (fun c => (c.no, c.slots)) ++ [(no, slots.map (fun p => (p, s.slotWords n p)))]
    (quiet → s.reelState n = 3 → s.reelSending n = true →
      (¬ angleMode → starts (.cycleStart n .time) 0 (32 * bnat u.first) closed false ∧
        exec (.cycleStart n .trigger) s = .next s ∧ exec (.keepCycleStart n) s = .next s) ∧
      (angleMode →
        (u.trig = true → s.time.toNat < u.start + lineWindow s.reg n + 2000 → exec (.cycleStart n .trigger) s = .next s) ∧
        (u.trig = true → u.start + lineWindow s.reg n + 2000 ≤ s.time.toNat →
          starts (.cycleStart n .trigger) turned (128 + 32 * bnat u.first) closed false) ∧
        (u.trig = true ∨ s.keepSuppressed n = true → exec (.keepCycleStart n) s = .next s) ∧
        (u.trig = false → s.keepSuppressed n = false →
          starts (.keepCycleStart n) turned (64 + 32 * bnat u.first) 0 true))) ∧
    (quiet → ¬ angleMode → s.reelState n = 1 → s.reelEnabled n = true → u.passed = true → u.failed = false →
      u.pass = none → u.barred = false → s.mode = 1 ∨ s.mode = 4 → s.fatal = false →
      (s.reelCheck s.reg n = false →
        ∃ t, exec (.cycleStart n .time) s = .next t ∧ t.reelState n = 1 ∧ (t.reel n).barred = true ∧ t.bit st 9 = true) ∧
      (s.reelCheck s.reg n = true → s.get (Adr.REEL_CTL n) Bits.REEL_CTL_FSAFE = 0 → s.reelFenced n = false →
        starts (.cycleStart n .time) 0 32 closed false)) ∧
    (∀ p rest, u.todo = p :: rest → p < 64 → 1 ≤ s.slotWords n p → s.slotWords n p ≤ 128 →
      let k := 4 * s.slotWords n p
      let line := lineAdr n p
      let stage := stageAdr n p
      let safe := getBit u.nsafe p
      let slot (h : Nat) (b : List Byte) : List Byte :=
        let body := leBytes 4 ((if safe then 2 ^ 31 + 2 ^ 29 else h) + 256 * p + s.slotWords n p) ++ b
        body ++ leBytes 4 (crc32 body)
      let goes (h : Nat) (b : List Byte) (m : List Byte) : Prop := ∃ t, exec (.slotTransmit n) s = .next t ∧
        (t.reel n).todo = rest ∧ (t.reel n).begun = true ∧ (t.reel n).sent = slot h b ∧ Wrote s t line m ∧
        (getBit u.latched p = true → t.bit (Adr.REEL_CLOSED n) p = false)
      Clean s line k → s.memErrs line k = false → Sound s → s.get Adr.BLK_LIBINJCTL Bits.BLK_LIBINJCTL_ARM = 0 →
      (getBit u.latched p = false →
        goes (if getBit u.repeats p then 2 ^ 30 else if u.keep then 0 else 2 ^ 31) (memBytes s.mem line k) []) ∧
      (getBit u.latched p = true → s.memErrs stage k = false →
        (Clean s stage k → mget (memBytes s.mem stage k) u.snap p = memBytes s.mem stage k →
          goes 0 (memBytes s.mem stage k) (memBytes s.mem stage k)) ∧
        ((∃ i, i < k ∧ s.codeStat (stage + i) = .bad) → goes (2 ^ 31) (memBytes s.mem line k) []))) ∧
    (∀ c rest words, u.cycles = c :: rest → Sound s → s.get Adr.BLK_LIBINJCTL Bits.BLK_LIBINJCTL_ARM = 0 →
      let count (t : State) (k : Nat) : Prop := t.get (Adr.REEL_CNT n) Bits.REEL_CNT_BAD =
        min 0xFFFF (s.get (Adr.REEL_CNT n) Bits.REEL_CNT_BAD + k)
      let missed (p : Nat) : Bool := !c.got.contains p || (decide (hdr = some false) && !getBit c.bad p)
      let zeroed (a : Nat) : Prop := ∃ x ∈ c.slots, missed x.1 = true ∧ retAdr n c.no x.1 ≤ a ∧ a < retAdr n c.no x.1 + 4 * x.2
      (c.slots.find? (fun x => x.1 == r.pos.val) = some (r.pos.val, words) → c.got.contains r.pos.val = false →
        r.payload.length = 4 * words → 1 ≤ words → words ≤ 128 → s.memErrs (retAdr n c.no r.pos) (4 * words) = false →
        let header : Bool := c.hdrBad || !hdrGood
        let lost : Bool := header || !r.crcGood || !r.rvalid
        let bad : Bool := lost || r.inbad
        ∃ t, exec (.returnSlotReceive n hdrGood r) s = .next t ∧
          (t.reel n).cycles = { c with got := c.got ++ [r.pos.val], bad := c.bad ||| (if bad then 2 ^ r.pos.val else 0)
                                       hdrBad := header } :: rest ∧
          Wrote s t (retAdr n c.no r.pos) (if lost then List.replicate (4 * words) 0 else r.payload) ∧
          (header = true → t.bit st 5 = true) ∧ (r.crcGood = false → t.bit st 6 = true) ∧
          (r.crcGood = true → r.rvalid = false → t.bit st 0 = true) ∧ count t (bnat bad)) ∧
      ((∀ x ∈ c.slots, x.1 < 64 ∧ x.2 ≤ 128 ∧ s.memErrs (retAdr n c.no x.1) (4 * x.2) = false) →
        ∃ t, exec (.returnComplete n hdr loopNs) s = .next t ∧ (t.reel n).cycles = rest ∧
          (t.reel n).completed = u.completed + 1 ∧ t.reg (Adr.REEL_RETCYC n) = BitVec.ofNat 64 c.no ∧
          t.get (Adr.REEL_LOOP n) Bits.REEL_LOOP_LOOP =
            (if hdr = none then s.get (Adr.REEL_LOOP n) Bits.REEL_LOOP_LOOP else loopNs.toNat) ∧
          (hdr = some false → c.hdrBad = false → t.bit st 5 = true) ∧
          (∀ p, p < 64 → t.bit (Adr.REEL_RETOK n) p =
            (c.slots.any (fun x => x.1 == p) && !missed p && !getBit c.bad p)) ∧
          (∀ a, zeroed a → memRd t.mem a = 0) ∧ (∀ a, ¬ zeroed a → memRd t.mem a = memRd s.mem a) ∧
          count t (c.slots.countP (fun x => missed x.1)) ∧
          t.rings = s.rings ++ (if s.get (Adr.REEL_CTL n) Bits.REEL_CTL_RETDB = 0 ∨ c.ang = true then
            [⟨257 + 4 * n, .hw, none⟩] else []))) ∧
    (Accepts s who .r2 0 0 (Adr.REEL_CLOSE n) →
      (s.reelFenced n = true → exec (.reelClose who n v) s = .next (s.reply who .err (Adr.REEL_CLOSE n))) ∧
      (s.reelFenced n = false →
        (v.getLsbD 6 = false →
          exec (.reelClose who n v) s = .next ((s.setBit (Adr.REEL_CLOSED n) (v.toNat % 64)).answer who .ok)) ∧
        (v.getLsbD 6 = true → ∃ t, exec (.reelClose who n v) s = .next t ∧ ∀ p, p < 64 →
          t.bit (Adr.REEL_CLOSED n) p = (s.bit (Adr.REEL_CLOSED n) p || s.slotEn n p))))

/-- R231 to R242: express writes and their refusals, express frames going out and coming back, lock lost and regained,
LOSS and EVENT sets. Model's choices it rests on: log entries 74 and 126. -/
def Obligations.ReelExpressAndLine : Prop :=
  ∀ (s : State) (who : Initiator) (n : Reel) (v : DWord) (acks : BitVec 16) (pos : BitVec 6),
    let u := s.reel n
    let st := Adr.REEL_STAT n
    let ex := Adr.REEL_EXSTAT n
    let es : List Word := [v.setWidth 32, v.extractLsb' 32 32].filter (fun w => w.toNat / 2 ^ 12 % 4 != 3)
    let total (q : List (List Word)) : Nat := (q.map List.length).foldl (· + ·) 0
    let x := Instr.reelExp who n v
    let heard : Prop := s.mode ≠ 0 ∨ s.reelEnabled n = true
    (Accepts s who .r2 0 0 (Adr.REEL_EXP n) →
      (s.reelFenced n = false → es = [] → exec x s = .next (s.answer who .ok)) ∧
      (s.reelFenced n = true ∨ (es ≠ [] ∧ (s.reelSending n = false ∨ ∃ w ∈ es, w.toNat / 2 ^ 29 ≠ n)) →
        exec x s = .next (s.reply who .err (Adr.REEL_EXP n))) ∧
      (s.reelFenced n = false → s.reelSending n = true → es ≠ [] → (∀ w ∈ es, w.toNat / 2 ^ 29 = n) →
        (u.waiting = [] → total u.queue + es.length ≤ 64 → exec x s = .next
          (((s.setReel n { u with queue := u.queue ++ [es] }).put ex Bits.REEL_EXSTAT_QLEN (total (u.queue ++ [es]))).answer
            who .ok)) ∧
        (u.waiting ≠ [] ∨ 64 < total u.queue + es.length → exec x s = .next
          (s.setReel n { u with waiting := u.waiting ++ [{ who := who, id := s.hostNow, entries := es }] })))) ∧
    (∀ now later : List (List Word), s.reelSending n = true → s.get ex Bits.REEL_EXSTAT_ALLOW = 1 → u.queue = now ++ later →
      now ≠ [] → total now ≤ 16 → (∀ w l, later = w :: l → 16 < total now + w.length) → total later ≤ 64 →
      u.numbered = true → u.waiting = [] →
      let w := now.flatten
      let q := (s.get ex Bits.REEL_EXSTAT_SEQ + 1) % 256
      let body := leBytes 4 (q * 2 ^ 24 + w.length) ++ wordBytes w
      ∃ t, exec (.expressFrameStart n) s = .next t ∧ (t.reel n).queue = later ∧
        (t.reel n).frames = u.frames ++ [(q, w.length)] ∧ (t.reel n).sent = body ++ leBytes 4 (crc32 body) ∧
        (t.reel n).exEnd = s.time.toNat + 40 + 16 * w.length ∧ (t.reel n).aligns = [] ∧
        t.get ex Bits.REEL_EXSTAT_SEQ = q ∧ t.get ex Bits.REEL_EXSTAT_ALLOW = 0 ∧
        t.get ex Bits.REEL_EXSTAT_QLEN = total later) ∧
    (s.reelSending n = false ∨ s.get ex Bits.REEL_EXSTAT_ALLOW = 0 ∨ u.queue = [] → exec (.expressFrameStart n) s = .next s) ∧
    exec (.expressAllowanceOpen n) s = .next (s.put ex Bits.REEL_EXSTAT_ALLOW 1) ∧
    (∀ q k rest, u.frames = (q, k) :: rest →
      let t0 := s.setReel n { u with frames := rest }
      let nack := ((List.range k).filter (fun i => !acks.getLsbD i)).length
      exec (.expressFrameReturn n false acks) s =
        .next (t0.put ex Bits.REEL_EXSTAT_LOST (min 255 (s.get ex Bits.REEL_EXSTAT_LOST + 1))) ∧
      (nack = 0 → exec (.expressFrameReturn n true acks) s = .next t0) ∧
      (0 < nack → ∃ t, exec (.expressFrameReturn n true acks) s = .next t ∧
        t.get ex Bits.REEL_EXSTAT_NACK = min 255 (s.get ex Bits.REEL_EXSTAT_NACK + nack) ∧ t.bit st 7 = true ∧
        (t.reel n).frames = rest)) ∧
    (s.get st Bits.REEL_STAT_LOCK = 1 → heard → ∃ t, exec (.lockLoss n) s = .next t ∧ t.get st Bits.REEL_STAT_LOCK = 0 ∧
      t.bit st 3 = true ∧ t.rings = s.rings ++ [⟨258 + 4 * n, .hw, none⟩] ∧
      t.get (Adr.REEL_CNT n) Bits.REEL_CNT_LOSSCNT = min 0xFFFF (s.get (Adr.REEL_CNT n) Bits.REEL_CNT_LOSSCNT + 1)) ∧
    (s.reelClock = true →
      exec (.lockRegain n) s = .next (s.put st Bits.REEL_STAT_LOCK 1) ∧
      (heard → (∃ t, exec (.lossSetReceive n pos) s = .next t ∧ t.bit st 4 = true ∧
          t.get (Adr.REEL_ERRPOS n) Bits.REEL_ERRPOS_BREAKPOS = pos.toNat ∧
          t.get (Adr.REEL_ERRPOS n) Bits.REEL_ERRPOS_BRKV = 1) ∧
        (∃ t, exec (.eventSetReceive n pos) s = .next t ∧ t.rings = s.rings ++ [⟨259 + 4 * n, .hw, none⟩] ∧
          t.get (Adr.REEL_ERRPOS n) Bits.REEL_ERRPOS_EVPOS = pos.toNat ∧
          t.get (Adr.REEL_ERRPOS n) Bits.REEL_ERRPOS_EVV = 1)))

/-! ### The relays -/

/-- R508 to R511, R521, R522, R535, R537: what the steps of a training leave, whether it is done or out of time, lock
loss, retraining, credits, NOTREADY, and the latency measurement of a relay port. Model's choices it rests on: log
entries 79, 81, 118 and 132. -/
def Obligations.RelayLinkStates : Prop :=
  ∀ (s : State) (who : Initiator) (p : Port) (peer : BitVec 12) (rounds : List (BitVec 8 × BitVec 16)) (round : BitVec 16)
    (bulk : Bool) (n : BitVec 5) (seq turn : BitVec 8),
    let r := s.relay p
    let st := Adr.RLY_PSTAT p
    let cr := Adr.RLY_CRED p
    let lat := Adr.RLY_LAT p
    let left (u : State) : Prop := u.rlyState p = 1 ∧ (u.relay p).urgent = [] ∧ (u.relay p).bulk = [] ∧
      u.get cr Bits.RLY_CRED_UCRED = 0 ∧ u.get cr Bits.RLY_CRED_BCRED = 0 ∧
      u.get (Adr.RLY_CNT p) Bits.RLY_CNT_UNSENT =
        min 255 (s.get (Adr.RLY_CNT p) Bits.RLY_CNT_UNSENT + (r.urgent ++ r.bulk).length)
    let linked : Ring := ⟨288 + 4 * p, .hw, none⟩
    let given : Fld := if bulk then Bits.RLY_CRED_BCRED else Bits.RLY_CRED_UCRED
    let measure (m : BitVec 8 × BitVec 16) : Nat := m.2.toNat - 2 * m.1.toNat
    let sum (l : List Nat) : Nat := l.foldl (· + ·) 0
    let mean (u : State) (l : List Nat) : Prop := (u.relay p).lats = l ∧
      (u.get lat Bits.RLY_LAT_LAT = sum l / 2 ∨ (sum l % 2 = 1 ∧ u.get lat Bits.RLY_LAT_LAT = sum l / 2 + 1))
    let lats : List Nat := (measure (turn, round) :: r.lats).take 16
    let own : Prop := peer.toNat = s.postcode
    let peered (u : State) : Prop := u.get st Bits.RLY_PSTAT_PEER = peer.toNat ∧ (own → u.bit st 7 = true) ∧
      (¬ own → rounds.length = 16 → sum (rounds.map measure) < 2 ^ 16 → mean u (rounds.map measure))
    (s.rlyState p ≠ 1 → exec (.trainingTimeout ⟨p, some peer, rounds⟩) s = .next s ∧
      exec (.trainingTimeout ⟨p, none, rounds⟩) s = .next s ∧ exec (.trainingComplete p peer rounds) s = .next s) ∧
    (s.rlyState p = 1 →
      exec (.trainingTimeout ⟨p, none, rounds⟩) s = .next (s.setRelay p { r with step := 0 }) ∧
      (∃ u, exec (.trainingTimeout ⟨p, some peer, rounds⟩) s = .next u ∧ u.rlyState p = 1 ∧ (u.relay p).step = 0 ∧ peered u) ∧
      (∃ u, exec (.trainingComplete p peer rounds) s = .next u ∧ peered u ∧
        (own ∨ rounds.length ≠ 16 → u.rlyState p = 1 ∧ u.rings = s.rings) ∧
        (¬ own → rounds.length = 16 → u.stepTime = true ∧
          (s.mode = 0 → u.rlyState p = 2 ∧ u.rings = s.rings) ∧
          (s.mode ≠ 0 → u.rlyState p = 3 ∧ u.rings = s.rings ++ [linked] ∧
            (u.relay p).credU = s.get cr Bits.RLY_CRED_UFREE ∧ (u.relay p).credB = s.get cr Bits.RLY_CRED_BFREE)))) ∧
    (s.rlyState p = 3 → s.storeWait = [] →
      (∃ u, exec (.blockLockLoss p) s = .next u ∧ left u ∧ u.bit st 0 = true ∧
        (r.urgent = [] → r.bulk = [] → u.rings = s.rings ++ [linked])) ∧
      (Accepts s who .r1 0 0 (Adr.RLY_PCTL p) → s.get (Adr.RLY_PCTL p) Bits.RLY_PCTL_EN = 1 →
        ∃ u, exec (.retrain who p) s = .next u ∧ left u ∧ u.get (Adr.RLY_PCTL p) Bits.RLY_PCTL_EN = 1)) ∧
    (s.rlyState p = 3 →
      exec (.creditReceive p bulk n) s =
        .next ((s.put st Bits.RLY_PSTAT_PNR 0).put cr given (min 16 (s.get cr given + n.toNat))) ∧
      (∀ q, r.ping = some q →
        exec (.pingSend p) s = .next (s.setRelay p { r with ping := some ((q + 1) % 256), wait := true })) ∧
      (r.ping = none → ∃ u q, exec (.pingSend p) s = .next u ∧ u.relay p = { r with ping := some q, wait := true } ∧ q < 256) ∧
      (r.wait = true → r.ping = some seq.toNat → lats.length = 16 → sum lats < 2 ^ 16 →
        ∃ u, exec (.pongReceive p seq turn round) s = .next u ∧ mean u lats ∧ (u.relay p).wait = false) ∧
      (r.wait = false ∨ r.ping ≠ some seq.toNat → exec (.pongReceive p seq turn round) s = .next s)) ∧
    (s.rlyState p ≠ 3 → exec (.blockLockLoss p) s = .next s ∧ exec (.creditReceive p bulk n) s = .next s ∧
      exec (.pingSend p) s = .next s ∧ exec (.pongReceive p seq turn round) s = .next s) ∧
    (s.rlyState p ≠ 0 →
      exec (.notreadyReceive p) s = .next (s.put st Bits.RLY_PSTAT_PNR 1) ∧
      exec (.pingReceive p ⟨seq, turn⟩) s = .next (s.setRelay p { r with pong := some (seq.toNat, turn.toNat) }))

/-- R513, R515 to R531, R533: letters that arrive, go out in the order of R520, wait too long or are made through the
remote window; replies and reads without one; letters from other blocks that write or read here or ring a doorbell.
Model's choices it rests on: log entries 25, 65, 78, 120, 130 and 131. -/
def Obligations.RelayLettersAndTheRemoteWindow : Prop :=
  ∀ (s : State) (who : Initiator) (p q : Port), s.readWait = [] → s.storeWait = [] → s.rlyState p = 3 →
    let r := s.relay p
    let st := Adr.RLY_PSTAT p
    let cr := Adr.RLY_CRED p
    let cnt := Adr.RLY_CNT p
    let more (u : State) (f : Fld) : Prop := u.get cnt f = min 255 (s.get cnt f + 1)
    let lane (x : RelayPort) (urg : Bool) : List OutLetter := if urg then x.urgent else x.bulk
    let cred (urg : Bool) : Fld := if urg then Bits.RLY_CRED_UCRED else Bits.RLY_CRED_BCRED
    let room (urg : Bool) : Fld := if urg then Bits.RLY_CRED_UFREE else Bits.RLY_CRED_BFREE
    let returned (u : State) (urg : Bool) : Prop :=
      u.relay p = (if urg then { r with credU := 1 } else { r with credB := 1 }) ∧ ∀ q, q ≠ p.val → u.relay q = s.relay q
    (∀ f : List Byte,
      let urg := frameUrgent f
      let x := Instr.letterReceive p f
      (s.get cr (room urg) = 0 → ∃ u, exec x s = .next u ∧ more u Bits.RLY_CNT_CVCNT ∧ u.relays = s.relays ∧
        u.inbox = s.inbox) ∧
      (0 < s.get cr (room urg) → s.get cr (room urg) ≤ 16 →
        let malformed : Prop := ∃ u, exec x s = .next u ∧ more u Bits.RLY_CNT_BADCNT ∧ u.bit st 5 = true ∧
          u.get cr (room urg) = s.get cr (room urg) ∧ returned u urg ∧ u.inbox = s.inbox
        (parseLetter f = none → malformed) ∧
        (∀ l, parseLetter f = some l → l.kind ≤ 3 → l.urg = urg →
          (l.kind = 2 → s.routeOf l.dest = 4 → mhas s.readTags l.tag = true → (s.readTag l.tag).len ≠ l.payload.length →
            malformed) ∧
          (s.routeOf l.dest = q.val → l.hops = 0 → ∃ u, exec x s = .next u ∧ more u Bits.RLY_CNT_HOPCNT ∧
            u.bit st 4 = true ∧ returned u urg) ∧
          (s.routeOf l.dest = q.val → l.hops ≠ 0 → s.rlyState q = 3 → ∃ u, exec x s = .next u ∧
            lane (u.relay q) l.urg =
              lane (s.relay q) l.urg ++ [{ let_ := { l with hops := l.hops - 1 }, buf := some p.val, inp := p.val }] ∧
            u.get cr (room urg) = s.get cr (room urg) - 1) ∧
          (s.routeOf l.dest = 4 → l.kind ≠ 2 → ∃ u, exec x s = .next u ∧
            u.get cr (room urg) = s.get cr (room urg) - 1 ∧
            u.inbox = s.inbox ++ [{ id := s.letterId, let_ := l, port := some p.val }])))) ∧
    (∀ (urg : Bool) (o : OutLetter) (before after : List OutLetter), lane r urg = before ++ o :: after →
      let served := if urg then r.servedU else r.servedB
      let turn (i : Nat) : Nat := (i + 9 - served) % 5
      let freed (u : State) : Prop := o.copy = none → ∀ b, o.buf = some b →
        u.get (Adr.RLY_CRED b) (room o.let_.urg) = min 16 (s.get (Adr.RLY_CRED b) (room o.let_.urg) + 1)
      (o.let_.urg = urg → served < 5 → o.inp < 5 → (∀ x ∈ before, x.inp ≠ o.inp) →
        (∀ x ∈ before ++ after, x.inp < 5 ∧ turn o.inp ≤ turn x.inp) → 0 < s.get cr (cred urg) →
        (urg = true ∧ (r.row < 8 ∨ r.bulk = [] ∨ s.get cr Bits.RLY_CRED_BCRED = 0)) ∨
          (urg = false ∧ (r.urgent = [] ∨ s.get cr Bits.RLY_CRED_UCRED = 0 ∨ 8 ≤ r.row)) →
        ∃ u, exec (.letterForward p urg) s = .next u ∧ lane (u.relay p) urg = before ++ after ∧
          (o.corr = none → (u.relay p).sent = o.let_.frame) ∧
          (∀ c since, o.corr = some (c, since) →
            let stamped := o.let_.payload.take 40 ++ leBytes 4 (c + (s.time - since).toNat) ++ o.let_.payload.drop 44
            (u.relay p).sent = ({ o.let_ with payload := stamped } : Letter).frame) ∧
          lane (u.relay p) (!urg) = lane r (!urg) ∧ u.get cr (cred urg) = s.get cr (cred urg) - 1 ∧ freed u ∧
          (if urg then (u.relay p).servedU else (u.relay p).servedB) = o.inp ∧
          (u.relay p).row = if urg then r.row + 1 else 0) ∧
      (before = [] → o.let_.urg = urg → ∃ u, exec (.letterWaitTimeout p urg) s = .next u ∧ lane (u.relay p) urg = after ∧
        more u Bits.RLY_CNT_UNSENT ∧ u.bit st 3 = true ∧ freed u)) ∧
    (∀ (a : Word) (size : Fin 4) (v : DWord),
      let pc : Word := match who with
        | .engine g => (s.eng g).arch.remotePc
        | _ => (s.reg Adr.RLY_HOSTPC).setWidth 32
      let dest := pc.toNat % 4096
      let far := pc.toNat / 2 ^ 30 * 2 ^ 30 + (a.toNat - 0xC0000000)
      let bytes := 2 ^ size.val
      let hops := s.get Adr.RLY_CTL Bits.RLY_CTL_HOPS
      (s.reg Adr.RLY_HOSTPC).toNat < 2 ^ 32 → 0xC0000000 ≤ a.toNat → a.toNat % bytes = 0 → s.routeOf dest = p.val →
      (s.portCode who a.toNat true = .ok →
        let bell : Prop := size.val = 2 ∧ far = 0x30000800
        let write : Letter := { kind := 0, dest := dest, src := s.postcode, urg := pc[29], hops := hops, arg := far
                                payload := leBytes bytes v.toNat }
        let answered (u : State) : Prop := u.resp = some { who := who, code := .ok }
        (s.hubFull = false →
          (bell → ∃ u, exec (.remoteWrite who a size v) s = .next u ∧ answered u ∧
            (u.relay p).urgent = r.urgent ++ [{ let_ := { kind := 3, dest := dest, src := s.postcode, urg := true, hops := hops
                                                          arg := v.toNat % 4096 }, by_ := some who }]) ∧
          (¬ bell → (∀ x ∈ lane r pc[29], x.by_ ≠ some who) → ∃ u, exec (.remoteWrite who a size v) s = .next u ∧ answered u ∧
            lane (u.relay p) pc[29] = lane r pc[29] ++ [{ let_ := write, by_ := some who }])) ∧
        (∀ l o, ¬ bell → lane r pc[29] = l ++ [o] → o.by_ = some who → o.let_.kind = 0 → o.let_.dest = dest →
          o.let_.arg + o.let_.payload.length = far → o.let_.payload.length + bytes ≤ 256 →
          ∃ u, exec (.remoteWrite who a size v) s = .next u ∧ answered u ∧ lane (u.relay p) pc[29] =
            l ++ [{ o with let_ := { o.let_ with payload := o.let_.payload ++ leBytes bytes v.toNat } }]) ∧
        (s.hubFull = true → bell ∨ (∀ x ∈ lane r pc[29], x.by_ ≠ some who) → exec (.remoteWrite who a size v) s =
          .next { s with storeWait := [⟨who, .port who 0 bytes, pc.toNat, a.toNat, bytes, v.toNat⟩] })) ∧
      (s.portCode who a.toNat false = .ok →
        (who = .debug →
          exec (.remoteRead who a size) s = .next ((s.put Adr.DBG_STAT Bits.DBG_STAT_NOPEEK 1).answer who .ok)) ∧
        (who ≠ .debug → s.readTags = [] → ∃ u, exec (.remoteRead who a size) s = .next u ∧
          u.readTags = [(0, { who := .port who 0 bytes, arg := far, len := bytes, dest := dest, urg := pc[29]
                              port := some p.val })] ∧
          u.get Adr.RLY_RDSTAT Bits.RLY_RDSTAT_OUTST = 1 ∧
          lane (u.relay p) pc[29] = lane r pc[29] ++ [{ let_ := {
            kind := 1, dest := dest, src := s.postcode, urg := pc[29], hops := hops, arg := far, rlen := bytes } }]))) ∧
    (∀ (tag : BitVec 6) (v : DWord) (status : BitVec 2) (t : ReadTag) (k : Nat), s.readTags = [(tag.toNat, t)] →
      t.who = .port who 0 k → t.len = k → who ≠ .host → k ≤ 8 → (∀ x ∈ s.inbox, x.let_.kind ≠ 2) →
      let turn : Prop := ∀ x ∈ s.inbox, x.let_.urg ≠ t.urg ∨ x.let_.src ≠ t.dest
      let outst (u : State) (n : Nat) : Prop := u.get Adr.RLY_RDSTAT Bits.RLY_RDSTAT_OUTST = n
      (turn → ∃ u, exec (.readReplyReceive tag status v) s = .next u ∧ u.readTags = [] ∧ outst u 0 ∧ u.inbox = s.inbox ∧
        u.resp = if t.late then s.resp else some (if status = 0 then
          { who := who, code := .ok, data := BitVec.ofNat 64 (v.toNat % 2 ^ (8 * k)) } else { who := who, code := .err })) ∧
      (¬ turn → ∃ u, exec (.readReplyReceive tag status v) s = .next u ∧ u.readTags = s.readTags ∧ u.resp = s.resp ∧
        ∃ y, u.inbox = s.inbox ++ [y] ∧ y.let_.kind = 2 ∧ y.let_.tag = tag.toNat) ∧
      (t.late = true → exec (.readTimeout tag) s = .next s) ∧
      (t.late = false → t.port = some p.val → ∃ u, exec (.readTimeout tag) s = .next u ∧
        u.readTags = [(tag.toNat, { t with late := true })] ∧ outst u 0 ∧ u.bit st 1 = true ∧
        u.resp = some { who := who, code := .err } ∧ u.get Adr.RLY_RDSTAT Bits.RLY_RDSTAT_TMOCNT =
          min 0xFFFF (s.get Adr.RLY_RDSTAT Bits.RLY_RDSTAT_TMOCNT + 1))) ∧
    (∀ x : InLetter, s.inbox = [x] → x.port = some p.val → x.issued = false → s.get cr (room x.let_.urg) < 16 →
      let l := x.let_
      let n := l.payload.length
      let freed (u : State) : Prop := u.inbox = [] ∧ u.get cr (room l.urg) = s.get cr (room l.urg) + 1
      let granted (write : Bool) (k : Nat) : Prop := ∀ i, i < k → s.winGrants write (l.arg + i) = true
      (l.kind = 3 → ∃ u, exec .doorbellLetterRing s = .next u ∧ freed u ∧
        u.rings = s.rings ++ [⟨l.arg % 4096, .letter, none⟩]) ∧
      (l.kind = 0 → ¬ granted true n →
        ∃ u, exec .inboundAccess s = .next u ∧ freed u ∧ u.bit st 2 = true ∧ u.mem = s.mem) ∧
      (l.kind = 0 → granted true n → 1 ≤ n → n ≤ 256 → spanOf l.arg n = .mem →
        (s.writeErr l.arg n = true → ∃ u, exec .inboundAccess s = .next u ∧ freed u ∧ u.bit st 2 = true ∧ u.mem = s.mem) ∧
        (s.writeErr l.arg n = false → (∀ i, i < n → inChannels (l.arg + i) = false) → Sound s →
          ∃ u, exec .inboundAccess s = .next u ∧ freed u ∧ Wrote s u l.arg l.payload)) ∧
      (l.kind = 0 → granted true n → spanOf l.arg n = .ext → ∃ u m, exec .inboundAccess s = .next u ∧
        u.inbox = [{ x with issued := true }] ∧ u.mmWait = s.mmWait ++ [m] ∧ m.who = .letter x.id ∧ m.write = true ∧
        m.adr = l.arg ∧ m.len = n ∧ m.bytes = l.payload) ∧
      (l.kind = 1 → 1 ≤ l.rlen → l.rlen ≤ 256 → s.routeOf l.src = q.val → s.rlyState q = 3 →
        let reply (arg : Nat) (b : List Byte) : Prop := ∃ u, exec .inboundAccess s = .next u ∧ freed u ∧ u.mem = s.mem ∧
          (arg ≠ 0 → u.bit st 2 = true) ∧ ∃ o, lane (u.relay q) l.urg = lane (s.relay q) l.urg ++ [o] ∧
          o.let_.kind = 2 ∧ o.let_.dest = l.src ∧ o.let_.src = s.postcode ∧ o.let_.tag = l.tag ∧ o.let_.arg = arg ∧
          o.let_.payload.length = l.rlen ∧ (arg = 0 → o.let_.payload = b)
        (¬ granted false l.rlen → reply (2 ^ 30) []) ∧
        (granted false l.rlen → spanOf l.arg l.rlen = .mem → Clean s l.arg l.rlen → s.memErrs l.arg l.rlen = false →
          Sound s → reply 0 (memBytes s.mem l.arg l.rlen))))

/-! ### Faults, fences and watchdogs -/

/-- R543 to R549, R552 to R561, R565: what the collector does with a report, its inputs and tests, fences and releases
by software, and the watchdogs. Model's choices it rests on: log entries 23, 106, 129 and 135. -/
def Obligations.FaultsFencesAndWatchdogs : Prop :=
  ∀ (s : State) (who : Initiator) (v : Word) (ix : BitVec 18) (g : Eng) (t : Tile) (a b : Bool),
    let src (c : Nat) : Nat := Adr.FLT_FIRST_SRC c
    let held (c : Nat) : Prop := s.bit (src c) 31 = true
    let recorded (u : State) (c : Nat) (r : Report) (esc : Bool) : Prop :=
      u.reg (src c) = BitVec.ofNat 64 (2 ^ 31 + bnat esc * 2 ^ 29 + (if c = 0 then 0 else r.cls * 2 ^ 16) + r.src) ∧
      u.reg (src c + 4) = r.det.setWidth 64 ∧ u.reg (src c + 8) = s.time
    let late (c : Nat) : Prop := s.get Adr.FLT_CTL Bits.FLT_CTL_GRACE * 40 ≤ (s.time - s.reg (src c + 8)).toNat
    let stopped (u : State) : Prop := u.fatal = true ∧ ∀ t : Tile, u.tileFenced t = true
    let sent (cls code : Nat) (det : Word) : State :=
      { s with reports := s.reports ++ [{ cls := cls, src := code, det := det, cyc := s.fbclk }] }
    let path (x y : Report) : Prop := x.src / 256 = y.src / 256 ∧ x.src / 256 < 12
    (∀ before r after, s.reports = before ++ r :: after → r.src < 2 ^ 16 →
      (∀ x ∈ before, x.cyc = r.cyc ∧ r.src < x.src ∧ ¬ path x r) → (∀ x ∈ after, x.cyc = r.cyc → r.src ≤ x.src ∨ path x r) →
      12 ≤ r.src / 256 ∨ (s.sleep (r.src / 256) ≠ 3 ∧ (s.tileFenced (r.src / 256) = false ∨ r.last = true)) →
      ∃ u, exec .faultCollect s = .next u ∧
        ((r.cls ≤ 1 ∧ (¬ held r.cls ∨ ¬ late r.cls)) → u.reports = before ++ after) ∧
        (r.cls ≤ 1 → ¬ held r.cls → recorded u r.cls r false ∧ u.fatal = s.fatal ∧
          (r.src / 256 < 12 → u.get (Adr.TIL_KCALL (r.src / 256)) Bits.TIL_KCALL_PEND = 1)) ∧
        (r.cls ≤ 1 → held r.cls → s.mode = 0 ∨ ¬ late r.cls → u.bit (src r.cls) 30 = true ∧ u.fatal = s.fatal) ∧
        (r.cls = 1 → held 1 → s.mode ≠ 0 → late 1 → stopped u ∧ (¬ held 2 → recorded u 2 r true)) ∧
        (r.cls = 2 → stopped u ∧ (¬ held 2 → recorded u 2 r false))) ∧
    (s.sleep t ≠ 3 → s.tileFenced t = false → ∃ u, exec (.tileWireFault t) s = .next u ∧ u.tileFenced t = true ∧
      { cls := 1, src := 256 * t + 13, last := true, cyc := s.fbclk } ∈ u.reports) ∧
    (s.health.started = true → s.health.sample = some (false, true) → s.health.host = false →
      1 ≤ s.get Adr.FLT_INCFG Bits.FLT_INCFG_CLASS → ∃ u, exec (.hostFaultInput false true) s = .next u ∧
        u.health.host = true ∧ u.get Adr.FLT_FSTAT Bits.FLT_FSTAT_INPAIR = 1 ∧
        u.reports = s.reports ++ [{ cls := s.get Adr.FLT_INCFG Bits.FLT_INCFG_CLASS - 1, src := 0x5041, cyc := s.fbclk }]) ∧
    (s.health.started = false → exec (.hostFaultInput a b) s =
      .next (s.put Adr.FLT_FSTAT Bits.FLT_FSTAT_INPAIR (2 * bnat a + bnat b))) ∧
    (Accepts s who .r0 0 0 Adr.FLT_ACK → ∃ u, exec (.fltAck who v) s = .next u ∧
      (∀ c, c < 2 → u.bit (src c) 31 = (s.bit (src c) 31 && !v.getLsbD c) ∧
        u.bit (src c) 30 = (s.bit (src c) 30 && !v.getLsbD c)) ∧ u.reg (src 2) = s.reg (src 2)) ∧
    (Accepts s who .r0 0 0 Adr.FLT_TEST →
      let cls := v.toNat / 2 ^ 30
      (s.mode = 1 ∨ s.mode = 2 → cls ≤ 2 → exec (.fltTest who v) s =
        .next ((sent cls 0x5044 (BitVec.ofNat 32 (v.toNat % 2 ^ 16))).answer who .ok)) ∧
      ((s.mode ≠ 1 ∧ s.mode ≠ 2) ∨ cls = 3 →
        exec (.fltTest who v) s = .next ((s.put Adr.FLT_FSTAT Bits.FLT_FSTAT_TREF 1).answer who .ok))) ∧
    (Accepts s who .r0 0 0 Adr.FLT_FENCE →
      let i := ix.toNat
      let refused (x : Instr) : Prop := exec x s = .next ((s.put Adr.FLT_FSTAT Bits.FLT_FSTAT_FREF 1).answer who .ok)
      let sets (k : BitVec 4) (P : State → Prop) : Prop := ∃ u, exec (.fence who k ix) s = .next u ∧ P u
      let frees (k : BitVec 4) (P : State → Prop) : Prop := ∃ u, exec (.fenceRelease who k ix) s = .next u ∧ P u
      let stays (k : BitVec 4) : Prop := (k.toNat, i) ∈ s.hwFenced ∧ exec (.fenceRelease who k ix) s = .next (s.answer who .ok)
      (∀ k : BitVec 4, s.fatal = true ∨ fenceCount k.toNat ≤ i →
        refused (.fence who k ix) ∧ refused (.fenceRelease who k ix)) ∧
      refused (.fenceRelease who 0 ix) ∧
      (s.fatal = false →
        (Sound s → s.channelFound i = true → s.channelFenced i = false →
          sets 0 (fun u => Wrote s u (0x20000000 + 8 * i + 7) [0x20])) ∧
        (s.channelFound i = false ∨ s.channelFenced i = true → sets 0 (fun u => u.mem = s.mem)) ∧
        (i < 512 → sets 1 (fun u => u.bit (Adr.FLT_FNODE (i / 64)) (i % 64) = true) ∧
          frees 1 (fun u => u.bit (Adr.FLT_FNODE (i / 64)) (i % 64) = false)) ∧
        (i < 8 → sets 2 (fun u => u.reelFenced i = true) ∧ frees 2 (fun u => u.reelFenced i = false)) ∧
        (i < 4 → sets 3 (fun u => u.rlyIsFenced i = true) ∧ frees 3 (fun u => u.rlyIsFenced i = false ∧
          (s.rlyIsFenced i = true → u.rlyState i = 1))) ∧
        (i < 192 → i % 16 ≠ 0 → sets 4 (fun u => u.engFenced i = true ∧
            (s.engFenced i = false → (u.eng i).flights = [] ∧ (u.eng i).link = none ∧ u.placed i = false)) ∧
          (s.tileFenced (i / 16) = true → refused (.fenceRelease who 4 ix)) ∧
          (s.tileFenced (i / 16) = false → stays 4 ∨ ((4, i) ∉ s.hwFenced ∧ frees 4 (fun u => u.engFenced i = false)))) ∧
        (i < 12 → sets 5 (fun u => u.figFenced i = true) ∧ sets 6 (fun u => u.tileFenced i = true) ∧
          (s.tileFenced i = true → refused (.fenceRelease who 5 ix)) ∧
          (s.tileFenced i = false → stays 5 ∨ ((5, i) ∉ s.hwFenced ∧ frees 5 (fun u => u.figFenced i = false))) ∧
          (s.tileFenced i = true → i ∉ s.health.wired → stays 6 ∨ ((6, i) ∉ s.hwFenced ∧ frees 6 (fun u =>
            u.tileFenced i = false ∧ u.figFenced i = false ∧ (s.sleep i ≠ 3 → s.mode ≠ 0 → i ∈ u.boot.restarts))))))) ∧
    (Accepts s (.engine g) .tileEng (tileOf g) 0 (Adr.TIL_WDSVC (tileOf g)) → ∀ h : tileOf g < 12,
      exec (.tilWdsvc (.engine g) ⟨tileOf g, h⟩) s = .next ((s.setEng g { s.eng g with
        wdog := 32 * s.get (Adr.TIL_WDCFG (tileOf g)) Bits.TIL_WDCFG_RELOAD }).answer (.engine g) .ok)) ∧
    (s.wdogCounts g = true → ∃ u, exec (.engineWatchdogExpiry g) s = .next u ∧
      u.bit (Adr.TIL_WDEXP (tileOf g)) (engOf g) = true ∧ u.engFenced g = true ∧
      (isLead g = true → u.tileFenced (tileOf g) = true) ∧
      ∃ r ∈ u.reports, r.cls = 1 ∧ r.src = 256 * tileOf g + 11 ∧ r.det = BitVec.ofNat 32 g) ∧
    (Accepts s (.engine g) .wdog 0 0 Adr.BLK_WDOG →
      (v.toNat / 2 ^ 16 = 0xC35A → exec (.blkWdog (.engine g) v) s =
        .next ((s.put Adr.BLK_WDOG ⟨tileOf g, 1⟩ 1).answer (.engine g) .ok)) ∧
      (v.toNat / 2 ^ 16 ≠ 0xC35A → exec (.blkWdog (.engine g) v) s = .next (s.answer (.engine g) .ok))) ∧
    (s.blkWdogCounts = true → ∃ u, exec .blockWatchdogExpiry s = .next u ∧ u.get Adr.BLK_WDCNT Bits.BLK_WDCNT_COUNT = 0 ∧
      u.reports = s.reports ++
        [{ cls := 2, src := 0x5040, det := BitVec.ofNat 32 (s.get Adr.BLK_WDOG Bits.BLK_WDOG_SEEN), cyc := s.fbclk }]) ∧
    (s.health.started = true → s.fatal = false → s.poreset = false →
      exec .aliveToggle s = .next { s with health := { s.health with alive := !s.health.alive } })

/-! ### Supplies, clocks, sleep and checks -/

/-- R575 to R604: what a tile's Off and On do and refuse, the sleep states, the steps of VREQ, FCLK and the rails,
live trips, checks and what they leave, sweeps, and Standby. Model's choices it rests on: log entries 33, 87, 91, 92,
93 and 136. -/
def Obligations.PowerSleepAndChecks : Prop :=
  ∀ (s : State) (who : Initiator) (t : Tile) (d : CheckData),
    let i := t.val
    let st := Adr.MRG_TSTAT i
    let pwr := Adr.MRG_PWR i
    let p := s.power i
    let sw := Adr.MRG_SWEEP
    let stbyv := s.get Adr.MRG_BLKV Bits.MRG_BLKV_STBYV
    let floor := s.get Adr.MRG_BLKV Bits.MRG_BLKV_FLOOR
    let vreq := s.get Adr.MRG_BLKV Bits.MRG_BLKV_VREQ
    let idle (k : Nat) : Prop := (∀ e, e < 16 → s.placed (16 * k + e) = true → e = 0 ∧ s.ctxOf (16 * k + e) = 0) ∧
      (s.figure k).queue = [] ∧ s.marching k = false
    let code (k : Tile) : Nat := if s.sleep k.val = 3 then 0
      else if s.mode = 0 then max (s.vt k.val) (s.power k.val).rail
      else if s.changing k = true then max (s.vt k.val) (s.nextVt k.val) else s.vt k.val
    let toward (c n : Nat) : Nat := if c < n then c + 1 else if n < c then c - 1 else c
    let free : Prop := s.sleep i ≠ 3 ∧ s.tileFenced i = false ∧ s.marching i = false ∧ p.check = none ∧ s.poreset = false
    let left (u : State) (full : Bool) : Prop :=
      let f (k : Nat) : Nat := if full = true ∨ k = s.vt i / 2 ∨ k = s.vt i / 2 + 1 then (d.fmax.getD k 0).toNat else 0
      let x : Int := (s.vt i : Int) - 2 * ((d.mmin.toNat : Int) - s.get Adr.MRG_GUARD Bits.MRG_GUARD_MG)
      let vmem : Nat := (max 0 (min x 50)).toNat
      let n := s.get (Adr.MRG_TPLAN i) Bits.MRG_TPLAN_NTGT
      let nt := if s.get (Adr.MRG_TPLAN i) Bits.MRG_TPLAN_EVENT = 1 then max n 40 else n
      let y : Int := (65536 * ((d.ffresh.toNat : Int) - d.fstr.toNat)) / d.ffresh.toNat
      u.get st Bits.MRG_TSTAT_TEMP = d.temp.toNat ∧ (u.power i).check = none ∧ u.logSeq = (s.logSeq + 1) % 65536 ∧
        (d.ffresh ≠ 0 → u.get st Bits.MRG_TSTAT_DEG = (max 0 (min y 65535)).toNat) ∧
        u.reg (Adr.MRG_ROSC i) = BitVec.ofNat 64 (d.fstr.toNat * 65536 + d.ffresh.toNat) ∧
        (∀ k, k ≤ 25 → vmem ≤ 2 * k → nt ≤ f k → (∀ j, j < k → vmem ≤ 2 * j → f j < nt) →
          u.reg (Adr.MRG_PROP i) = BitVec.ofNat 64 (2 ^ 31 + 2 * k * 256 + nt))
    (Accepts s who .r0 i 0 pwr →
      (¬ idle i → exec (.tileOff who t) s = .next ((s.put st Bits.MRG_TSTAT_OFFREF 1).answer who .ok)) ∧
      (idle i → s.changing t = true →
        exec (.tileOff who t) s = .next ((s.setPower i { p with off := true }).answer who .ok)) ∧
      (idle i → s.changing t = false → ∃ u, exec (.tileOff who t) s = .next u ∧ u.sleep i = 3 ∧ (u.power i).rail = 0 ∧
        (∀ a, lostInOff i a = true → u.reg a = regReset a) ∧
        (∀ a, lostInOff i a = false → a ≠ st → u.reg a = s.reg a) ∧
        (∀ a, memRd u.mem a = if memTile a = some i then 0 else memRd s.mem a) ∧
        (∀ g, g / 16 ≠ i → u.eng g = s.eng g))) ∧
    (s.targetCode who pwr true = .ok → grant .r0 who (s.ringOf who) i 0 = .ok → s.sleep i = 3 →
      ∃ u, exec (.tileOn who t) s = .next u ∧ u.sleep i = 0 ∧ (u.power i).rail = s.vt i ∧ (u.power i).fclk = s.fn i ∧
        (s.mode ≠ 0 → i ∈ u.boot.restarts)) ∧
    (s.sleep i = 0 → (∀ e, e < 16 → s.placed (16 * i + e) = false ∨
        ((s.eng (16 * i + e)).hold = .waiti ∧ s.anyPending (16 * i + e) = false)) →
      (s.figure i).running = none → (s.figure i).queue = [] → s.get (Adr.UC_STAT i) Bits.UC_STAT_BUSY = 0 →
      p.pwake = none → s.poreset = false → exec (.dozeEntry t) s = .next (s.put st Bits.MRG_TSTAT_SLEEP 1)) ∧
    (s.sleep i = 1 → s.get (Adr.MRG_SLEEP i) Bits.MRG_SLEEP_NAPEN = 1 → s.marching i = false → s.changing t = false →
      ¬ (s.get sw Bits.MRG_SWEEP_BUSY = 1 ∧ s.get sw Bits.MRG_SWEEP_TILE = i) → p.check = none →
      (i ∉ s.wakes → Leads (.napEntry t) s { s.setPower i { p with rail := stbyv } with plls := putBits s.plls (3 + i) 1 0 }
        [st] (fun u => u.sleep i = 2)) ∧
      (i ∈ s.wakes → exec (.napEntry t) s = .next s)) ∧
    (i ∈ s.wakes →
      let rest := s.wakes.filter (· != i)
      (s.sleep i = 1 → Leads (.tileWake t) s { s with wakes := rest } [st] (fun u => u.sleep i = 0)) ∧
      (s.sleep i = 2 → Leads (.tileWake t) s { s.setPower i { p with rail := s.vt i } with
        plls := putBits s.plls (3 + i) 1 1, wakes := rest } [st] (fun u => u.sleep i = 0))) ∧
    (s.sleep i = 0 → p.check = none → s.poreset = false →
      Leads (.liveTrip t) s (s.setPower i { p with fclk := 20, quick := true }) [st] (fun u =>
        u.reg st = putFld (putFld (s.reg st) Bits.MRG_TSTAT_LIVETRIP 1) Bits.MRG_TSTAT_SAFECLK 1)) ∧
    (p.quick = true → free →
      exec (.quickCheck t d) s = .next (s.setPower i { p with quick := false, check := some (false, d) })) ∧
    (s.get sw Bits.MRG_SWEEP_INT ≠ 0 → s.get sw Bits.MRG_SWEEP_INT ≤ s.get sw Bits.MRG_SWEEP_SINCE →
      s.get sw Bits.MRG_SWEEP_DUE = 0 →
      exec .sweepDue s = .next { s.put sw Bits.MRG_SWEEP_DUE 1 with sweepNext := 0 }) ∧
    (Accepts s who .r0 0 0 sw →
      (s.get sw Bits.MRG_SWEEP_DUE = 0 → exec (.sweepGo who) s =
        .next (({ s.put sw Bits.MRG_SWEEP_DUE 1 with sweepNext := 0 } : State).answer who .ok)) ∧
      (s.get sw Bits.MRG_SWEEP_DUE = 1 → exec (.sweepGo who) s = .next (s.answer who .ok))) ∧
    (s.get sw Bits.MRG_SWEEP_DUE = 1 → s.get sw Bits.MRG_SWEEP_BUSY = 0 → s.standby = false → s.blockStill = true → free →
      s.sweepNext ≤ i → (∀ k, s.sweepNext ≤ k → k < i → s.sleep k = 3 ∨ s.tileFenced k = true) →
      let begun (u : State) : Prop := u.get sw Bits.MRG_SWEEP_BUSY = 1 ∧ u.get sw Bits.MRG_SWEEP_TILE = i
      (s.sleep i ≠ 2 → Leads (.fullSweep t d) s (s.setPower i { p with check := some (true, d) }) [sw] begun) ∧
      (s.sleep i = 2 → ∃ u, exec (.fullSweep t d) s = .next u ∧ begun u ∧ u.sleep i = 1 ∧
        u.power i = { p with check := some (true, d), rail := s.vt i } ∧ u.plls = putBits s.plls (3 + i) 1 1)) ∧
    (∀ full, p.check = some (full, d) → s.mode ≠ 0 → s.sleep i ≠ 3 → s.tileFenced i = false →
      (full = false ∨ s.blockStill = true → ∃ u, exec (.checkComplete t) s = .next u ∧ left u full ∧
        (full = true → u.get sw Bits.MRG_SWEEP_BUSY = 0 ∧ u.sweepNext = i + 1)) ∧
      (full = true → s.blockStill = false → s.get sw Bits.MRG_SWEEP_TILE = i →
        Leads (.checkComplete t) s (s.setPower i { p with check := none }) [sw] (fun u =>
          u.get sw Bits.MRG_SWEEP_BUSY = 0))) ∧
    (s.mode = 4 → s.standby = false → s.poreset = false → s.get Adr.MRG_RUNTIME ⟨0, 32⟩ + 1 < 2 ^ 32 →
      Leads .runtimeHour s s [Adr.MRG_RUNTIME, sw] (fun u =>
        u.get Adr.MRG_RUNTIME ⟨0, 32⟩ = s.get Adr.MRG_RUNTIME ⟨0, 32⟩ + 1 ∧
        u.get sw Bits.MRG_SWEEP_SINCE = min 255 (s.get sw Bits.MRG_SWEEP_SINCE + 1))) ∧
    let steps (w : Nat) : Prop := exec .vreqStep s =
      .next (if vreq = w then s else s.put Adr.MRG_BLKV Bits.MRG_BLKV_VREQ (toward vreq w))
    (s.fatal = true → exec .vreqStep s = .next s) ∧ (s.fatal = false → s.poreset = true ∨ s.boot.cold = true → steps 30) ∧
    (s.fatal = false → s.poreset = false → s.boot.cold = false →
      (s.standby = false → ∀ w, floor ≤ w → (∀ k, code k ≤ w) → (w = floor ∨ ∃ k, code k = w) → steps (min w 50)) ∧
      (s.standby = true → s.boot.waking = true → steps floor) ∧
      (s.standby = true → s.boot.waking = false → (∀ k, k < 12 → s.sleep k = 3) → steps stbyv)) ∧
    (s.sleep i < 2 → s.poreset = false → s.get st Bits.MRG_TSTAT_SAFECLK = 0 → p.replan = false →
      (s.changing t = false →
        exec (.fclkStep t) s = .next (s.setPower i { p with fclk := toward p.fclk (s.fn i) })) ∧
      (s.changing t = true → p.slewed = false → p.off = false → s.vt i ≤ s.nextVt i →
        (s.vt i = s.nextVt i ∨ p.rail = s.nextVt i) → toward p.fclk (s.nextFn i) = s.nextFn i →
        Leads (.fclkStep t) s (s.setPower i { p with fclk := s.nextFn i })
          [st, Adr.MRG_PAIR i, groupCommit (.margin t)] (fun u =>
            u.reg (Adr.MRG_PAIR i) = s.shadowReg (Adr.MRG_PAIR i) ∧ u.changing t = false ∧
            u.get (groupCommit (.margin t)) cResult = 1))) ∧
    (s.sleep i = 0 → s.poreset = false → s.changing t = false →
      exec (.regulatorAck t) s = .next (s.setPower i { p with rail := s.vt i })) ∧
    (Accepts s who .r0 0 0 Adr.MRG_STBY → s.standby = false →
      let allowed : Prop := (s.mode = 1 ∨ s.mode = 4) ∧ s.fatal = false ∧ s.blockStill = true ∧ s.marching 12 = false ∧
        ∀ k, k < 12 → s.sleep k = 3 ∨ idle k
      (¬ allowed → exec (.standbyEnter who) s = .next ((s.put Adr.MRG_STBY Bits.MRG_STBY_SREF 1).answer who .ok)) ∧
      (allowed → ∃ u, exec (.standbyEnter who) s = .next u ∧ u.standby = true ∧ u.plls % 8 = 0 ∧
        u.get Adr.MRG_STBY Bits.MRG_STBY_SMODE = s.mode ∧ ∀ k : Tile, s.changing k = false → u.sleep k.val = 3)) ∧
    (Accepts s who .r0 0 0 Adr.MRG_STBY → s.standby = true → exec (.standbyWake who) s =
      .next (({ s with boot := { s.boot with waking := true } } : State).answer who .ok))

/-! ### The figure unit -/

/-- R98 to R100, R110 to R123, R133, R140 to R145, R149, R150, R154 to R159, R684: a figure starts with its
descriptor, its sequencer issues a step and forms the next address, a step passes LOAD, MAP, MAC, PACK and STORE, a
figure completes and is recorded, ABORT ends it, and held accesses are performed between two figures. Model's choices
it rests on: log entries 28, 45, 68 and 69. -/
def Obligations.FigureUnitRuns : Prop :=
  ∀ (s : State) (who : Initiator) (t : Tile),
    let i := t.val
    let u := s.figure i
    let runs (c : Instr) (r : FigRun) : Prop := exec c s = .next (s.setFigure i { u with running := some r })
    let recorded (v : State) (j : FigJob) (status : Nat) : Prop :=
      v.reg (Adr.FIG_TKSTAT i (j.ticket % 16)) = BitVec.ofNat 64 status ∧
        v.reg (Adr.FIG_TKDP i (j.ticket % 16)) = BitVec.ofNat 64 j.dptr ∧
        v.get (Adr.FIG_STAT i) Bits.FIG_STAT_DONE = j.ticket % 256 ∧ getBit (v.figure i).valid (j.ticket % 16) = true
    let failed (v : State) (j : FigJob) (cause k adr : Nat) : Prop :=
      v.reg (Adr.FIG_RESUME i) = BitVec.ofNat 64 (j.ticket * 2 ^ 24 + cause * 2 ^ 20 + k) ∧
        v.reg (Adr.FIG_FADDR i) = BitVec.ofNat 64 (adr % 2 ^ 32)
    let starts (j : FigJob) (rest : List FigJob) (f : FigUnit) (desc : List Word) : Prop :=
      let w (k : Nat) : Nat := (desc.getD k 0).toNat
      let k := w 15 / 2 ^ 8 % 2 ^ 11
      let first := s.get (Adr.FIG_MAP i j.num) Bits.FIG_MAP_START
      let resumes : Prop := getBit (w 15) 29 = true ∧ w 15 / 2 ^ 25 % 2 ^ 4 ≠ 9 ∧ 0 < k ∧ k < j.vl
      (figNew j first desc).descOk = true → ∃ r, exec (.figureStart t) s =
          .next (s.setFigure i { f with queue := rest, running := some r }) ∧
        r.job = j ∧ r.desc = desc ∧ r.addr = some first ∧ r.steps = 0 ∧ r.issued = 0 ∧ r.fault = none ∧ r.done = r.start ∧
        (resumes → r.start = k ∧ r.miscnt = w 13 ∧ r.firstmis = w 14 / 2 ^ 16 ∧ r.maxrun = w 14 % 2 ^ 16) ∧
        (¬ resumes → r.start = 0 ∧ r.miscnt = 0 ∧ r.firstmis = 0xFFFF ∧ r.maxrun = 0) ∧
        (∀ e, e < 1024 → getBit r.masked e =
          (getBit (w 0) 26 && (s.predBit i (w 0 / 2 ^ 22 % 2 ^ 3) e == getBit (w 0) 25)))
    let flagBits (r : FigRun) : Nat := bnat (getBit r.flags 0) * 2 ^ 24 + bnat (getBit r.flags 1) * 2 ^ 23 +
      bnat (getBit r.flags 2) * 2 ^ 22
    (∀ j rest, u.running = none → u.queue = j :: rest → s.tableWaits i = false →
      s.get (Adr.UC_STAT i) Bits.UC_STAT_BUSY = 0 → j.aborted = false → 0 < j.vl → j.vl ≤ 1024 →
      (figPlace j.eng j.dptr 64 = none → ∃ v, exec (.figureStart t) s = .next v ∧ (v.figure i).running = none ∧
        (v.figure i).queue = rest ∧ recorded v j (2 ^ 29 + 3 * 2 ^ 25 + j.ticket % 256) ∧ failed v j 3 0 j.dptr) ∧
      (∀ x, figPlace j.eng j.dptr 64 = some (.mem x) → allowed j.pr j.ring j.dptr 64 needR = true → Clean s x 64 →
        let desc := memWords s x 16
        starts j rest { u with queue := rest } desc) ∧
      (∀ y, figPlace j.eng j.dptr 64 = some (.ext y) → allowed j.pr j.ring j.dptr 64 needR = true →
        (u.descAnswer = none → u.descAsked ≠ some y → exec (.figureStart t) s =
          .next ((s.setFigure i { u with descAsked := some y }).mmAsk
            { who := .fig i j.ticket, write := false, adr := y, len := 64 })) ∧
        (u.descAnswer = none → u.descAsked = some y → exec (.figureStart t) s = .next s) ∧
        (∀ b, u.descAnswer = some b → b.ok = true →
          starts j rest { u with queue := rest, descAsked := none, descAnswer := none } (descWords 16 b.bytes)) ∧
        (∀ b, u.descAnswer = some b → b.ok = false → ∃ v, exec (.figureStart t) s = .next v ∧ (v.figure i).running = none ∧
          (v.figure i).queue = rest ∧ recorded v j (2 ^ 29 + 1 * 2 ^ 25 + j.ticket % 256) ∧ failed v j 1 0 j.dptr))) ∧
    (∀ (r : FigRun) (a : Nat), u.running = some r → r.fault = none → r.addr = some a →
      r.ql.length < 8 → r.qm.length < 8 → r.qx.length < 8 → r.qp.length < 8 → r.qs.length < 8 →
      let lim := s.get (Adr.FIG_STEPLIM i) Bits.FIG_STEPLIM_LIMIT
      let word := s.storeWord (figKey i a)
      let w := word.val
      (lim ≠ 0 → lim ≤ r.steps → ∃ q, runs (.sequencerStep t) q ∧ q.addr = none ∧
        ∃ f, q.fault = some f ∧ f.cause = 8 ∧ f.k = r.nextBase) ∧
      (lim = 0 ∨ r.steps < lim → word.figOk = false → ∃ v, exec (.sequencerStep t) s = .next v ∧
        v.figFenced i = true ∧ { cls := 1, src := 256 * i + 9, det := BitVec.ofNat 32 a, cyc := s.fbclk } ∈ v.reports) ∧
      (lim = 0 ∨ r.steps < lim → word.figOk = true → badField r.env w = none →
        ∃ q st, runs (.sequencerStep t) q ∧ st.no = r.steps ∧ st.word = w ∧ st.base = r.width * r.issued ∧
          q.ql = r.ql ++ [st] ∧ q.qm = r.qm ++ [st] ∧ q.qx = r.qx ++ [st] ∧ q.qp = r.qp ++ [st] ∧ q.qs = r.qs ++ [st] ∧
          q.steps = r.steps + 1 ∧ (mwSeq w ≠ 2 → q.issued = r.issued + bnat (mwEmit w)) ∧
          (mwSeq w = 0 → a < 2047 → q.addr = some (a + 1) ∧ q.fault = none) ∧
          (mwSeq w = 1 → q.issued < r.needed → 0 ≤ a + mwDisp w → a + mwDisp w < 2048 →
            q.addr = some (a + mwDisp w).toNat ∧ q.fault = none) ∧
          (mwSeq w = 1 → r.needed ≤ q.issued → a < 2047 → q.addr = some (a + 1) ∧ q.fault = none) ∧
          (mwSeq w = 2 → r.rep ≤ r.passes + 1 → a < 2047 →
            q.addr = some (a + 1) ∧ q.passes = 0 ∧ q.issued = r.issued + bnat (mwEmit w)) ∧
          (mwSeq w = 2 → r.passes + 1 < r.rep → a < 2048 →
            q.addr = some a ∧ q.passes = r.passes + 1 ∧ q.issued = r.issued) ∧
          (mwSeq w = 3 → r.stack.length < 4 → 0 ≤ a + mwDisp w → a + mwDisp w < 2048 →
            q.addr = some (a + mwDisp w).toNat ∧ q.stack = (a + 1) :: r.stack) ∧
          (∀ x l, mwSeq w = 4 → r.stack = x :: l → x < 2048 → q.addr = some x ∧ q.stack = l) ∧
          (mwSeq w = 5 → q.addr = none ∧ q.fault = none) ∧
          (6 ≤ mwSeq w ∨ (mwSeq w = 3 ∧ r.stack.length = 4) ∨ (mwSeq w = 4 ∧ r.stack = []) →
            q.addr = none ∧ ∃ f, q.fault = some f ∧ f.cause = 8))) ∧
    (∀ (r : FigRun) (st : FigStep) rest, u.running = some r → r.ql = st :: rest →
      let w := st.word
      (mwEntry w = false → runs (.figLoadStage t) { r with ql := rest }) ∧
      (∀ x : Nat → Nat, let n := fmtBytes r.afmt
        let adr (k : Nat) : Nat := (r.word 4 + (r.ga.pos + k) * n) % 2 ^ 32
        r.dot = false → r.fault = none → r.start = 0 → r.masked = 0 → st.base + 16 ≤ r.job.vl → r.lm.length < 4 →
        r.word 8 = 0 → mwFld w 127 118 = 2 ^ 9 → r.ga.held = false →
        (∀ k, k < 16 → figPlace r.job.eng (adr k) n = some (.mem (x k)) ∧ adr k % n = 0 ∧
          allowed r.job.pr r.job.ring (adr k) n needR = true ∧ Clean s (x k) n) →
        ∃ q y, runs (.figLoadStage t) q ∧ q.ql = rest ∧ q.lm = r.lm ++ [y] ∧ q.fault = none ∧ y.no = st.no ∧
          y.a = (List.range 16).map (fun k => ((memValue s (x k) n : Nat) : Int)) ∧ y.b = List.replicate 16 0 ∧
          q.ga.pos = r.ga.pos + 16)) ∧
    (∀ (r : FigRun) (st : FigStep) rest, u.running = some r → r.qm = st :: rest →
      let w := st.word
      (mwEntry w = false → runs (.figMapStage t) { r with qm := rest }) ∧
      (∀ y lm, mwEntry w = true → r.lm = y :: lm → y.no = st.no → r.ma.length < 4 → mwAop w = 0 → mwBop w = 0 →
        let a := y.a.map (fun v => fmtVal r.afmt v.toNat)
        let b := y.b.map (fun v => fmtVal r.bfmt v.toNat)
        runs (.figMapStage t) { r with qm := rest, lm := lm, ma := r.ma ++
          [if mwBit w 85 then { no := y.no, a := b, b := a } else { no := y.no, a := a, b := b }] })) ∧
    (∀ (r : FigRun) (st : FigStep) rest y ma, u.running = some r → r.qx = st :: rest → mwEntry st.word = true →
      r.ma = y :: ma → y.no = st.no → r.ap.length < r.resultRoom → r.acc.length = 16 → r.dot = false →
      r.afmt ≠ 7 → r.bfmt ≠ 7 →
      let w := st.word
      let a (k : Nat) : Int := y.a.getD k 0
      let b (k : Nat) : Int := y.b.getD k 0
      let old (k : Nat) : Int := if mwBit w 67 = true ∧ st.first = true then 0 else r.acc.getD k 0
      ∃ q, runs (.figMacStage t) q ∧ q.qx = rest ∧ q.ma = ma ∧
        (∀ k, k < 16 → r.isOn (st.base + k) = false → q.acc.getD k 0 = r.acc.getD k 0) ∧
        (∀ k, k < 16 → r.isOn (st.base + k) = true →
          (mwOp w = 0 → q.acc.getD k 0 = old k) ∧ (mwOp w = 1 → q.acc.getD k 0 = held 48 (a k)) ∧
          (mwOp w = 3 → q.acc.getD k 0 = held 48 (a k + b k)) ∧ (mwOp w = 4 → q.acc.getD k 0 = held 48 (a k - b k)) ∧
          (mwOp w = 5 → q.acc.getD k 0 = held 48 (a k * b k)) ∧
          (mwOp w = 6 → q.acc.getD k 0 = held 48 (old k + a k * b k)) ∧
          (mwOp w = 10 → q.acc.getD k 0 = held 48 (min (a k) (b k))) ∧
          (mwOp w = 13 → q.acc.getD k 0 = held 48 (a k * 2 ^ mwFld w 65 60))) ∧
        ((mwEmit w && st.last) = false → q.ap = r.ap) ∧
        ((mwEmit w && st.last) = true → ∃ z, q.ap = r.ap ++ [z] ∧ z.no = st.no ∧
          z.els.map (·.el) = ((List.range 16).map (st.base + ·)).filter r.isOn ∧
          ∀ e ∈ z.els, e.acc = q.acc.getD (e.el - st.base) 0 ∧ e.val = (emitVal r.job.fmt e.acc).1 ∧
            e.b = b (e.el - st.base) ∧ e.pred = s.predSeen i r (mwPs w) e.el)) ∧
    (∀ (r : FigRun) (st : FigStep) rest, u.running = some r → r.qp = st :: rest →
      let w := st.word
      ((mwEmit w && st.last) = false → runs (.figPackStage t) { r with qp := rest }) ∧
      (∀ x ap, (mwEmit w && st.last) = true → r.ap = x :: ap → x.no = st.no → r.ps.length < r.resultRoom →
        let packs (f : FigElem → FigElem) : Prop :=
          runs (.figPackStage t) { r with qp := rest, ap := ap, ps := r.ps ++ [{ no := x.no, els := x.els.map f }] }
        (mwPack w = 0 → packs (fun e => { e with bits := 0, width := 0 })) ∧
        (mwPack w = 1 → packs (fun e => { e with bits := e.val % 2, width := 1 })) ∧
        (mwPack w = 2 → packs (fun e => { e with
          bits := e.val % 2 ^ (mwFld w 44 41 + 1), width := mwFld w 44 41 + 1 })))) ∧
    (∀ (r : FigRun) (st : FigStep) rest, u.running = some r → r.qs = st :: rest →
      let w := st.word
      ((mwEmit w && st.last) = false → runs (.figStoreStage t) { r with qs := rest }) ∧
      (∀ x ps e, (mwEmit w && st.last) = true → r.ps = x :: ps → x.no = st.no → x.els = [e] → r.preds = [] →
        r.fault = none → r.isOn e.el = true → r.done ≤ e.el →
        let commits (q : FigRun) : Prop := q.qs = rest ∧ q.ps = ps ∧ q.done = e.el + 1 ∧ q.fault = none ∧
          q.miscnt = (r.miscnt + e.mis) % 2 ^ 32 ∧ q.flags = r.flags ||| mget 0 r.fl e.el ∧
          q.firstmis = if e.dif = true then min r.firstmis e.el else r.firstmis
        (mwCen w = false → ∃ q, runs (.figStoreStage t) q ∧ commits q) ∧
        (∀ y, mwCen w = true → e.width = 0 → mwAcc48 w = false → r.word 0x18 = 0 → mwBit w 25 = false → st.base ≤ e.el →
          let n := fmtBytes r.cfmt
          let a := (r.word 0x14 + (r.posC + (e.el - st.base)) * n) % 2 ^ 32
          figPlace r.job.eng a n = some (.mem y) → a % n = 0 → allowed r.job.pr r.job.ring a n needW = true →
          s.writeErr y n = false → (∀ k, k < n → inChannels (y + k) = false) → Sound s →
          ∃ v q, exec (.figStoreStage t) s = .next v ∧ (v.figure i).running = some q ∧ commits q ∧
            Wrote s v y (leBytes n e.val)))) ∧
    (∀ r : FigRun, u.running = some r → r.fault = none → r.job.vl ≤ 1024 → r.word 0 / 2 ^ 16 % 8 = 0 →
      let j := r.job
      let short := bnat (r.ended && decide (r.issued < r.needed)) * 2 ^ 19
      let results (status : Nat) : List Byte :=
        leBytes 4 r.miscnt ++ leBytes 4 (r.firstmis * 65536 + r.maxrun) ++ leBytes 4 status
      let closed (v : State) (status : Nat) : Prop := (v.figure i).running = none ∧ recorded v j status ∧
        (r.cfgC.mode = 4 → s.reelFenced r.cfgC.reel = false → v.bit (Adr.REEL_CLOSED r.cfgC.reel) r.cfgC.node = true)
      let place := figPlace j.eng (j.dptr + 0x34) 12
      (r.closing = none → r.addr = none → r.qs = [] →
        let status := flagBits r + short + j.ticket % 256
        ((∀ x, place ≠ some (.ext x)) → ∃ v, exec (.figureComplete t) s = .next v ∧ closed v status ∧
          (∀ x, place = some (.mem x) → s.writeErr x 12 = false → (∀ k, k < 12 → inChannels (x + k) = false) → Sound s →
            Wrote s v x (results status))) ∧
        (∀ x, place = some (.ext x) →
          let write : MmReq := { who := .fig i j.ticket, write := true, adr := x, len := 12, bytes := results status }
          ∃ q, exec (.figureComplete t) s = .next ((s.mmAsk write).setFigure i { u with running := some q }) ∧
            q.closing = some (status, false))) ∧
      (∀ status, r.closing = some (status, false) → exec (.figureComplete t) s = .next s) ∧
      (∀ status, r.closing = some (status, true) → ∃ v, exec (.figureComplete t) s = .next v ∧ closed v status) ∧
      (Accepts s who .r1 i 0 (Adr.FIG_CTL i) → u.queue = [] → r.closing = none → (∀ x, place ≠ some (.ext x)) →
        ∀ k, r.done ≤ k → r.isOn k = true → (∀ e, r.done ≤ e → e < k → r.isOn e = false) →
        ∃ v, exec (.figAbort who t) s = .next v ∧ (v.figure i).running = none ∧ failed v j 10 k 0 ∧
          recorded v j (2 ^ 29 + 10 * 2 ^ 25 + k * 2 ^ 8 + flagBits r + short + j.ticket % 256))) ∧
    (u.running = none →
      (∀ a rest, u.held = a :: rest → a.who = .host → ∃ v, exec (.figTableAccess t) s = .next v ∧ (v.figure i).held = rest ∧
        (∀ x, a.val = some x → v.reg a.adr = (x &&& if a.adr % 0x100000 < 0x7000 then 0xFFFF else 0xFFFFFFFF) ∧
          v.resp = some { who := .host, code := .ok }) ∧
        (a.val = none → v.regs = s.regs ∧
          let d : DWord := BitVec.ofNat 64 ((s.reg a.adr).toNat % 2 ^ 32 * 2 ^ (8 * (a.adr % 8)))
          v.resp = some { who := .host, code := .ok, data := d })) ∧
      (u.held = [] → ∃ v, exec (.figTableAccess t) s = .next v ∧
        ∀ g b, (s.eng g).hold = .figTable i b → (v.eng g).hold = .figTable i true))

/-! ### Memories and control stores -/

/-- R461, R464, R467 to R472, R476 to R478, R493 to R497, R502, R504: scrub pointers, write-backs, the GO words that a
march engine takes and refuses and what its operations leave, and UC_CMD with what RELOAD and VERIFY leave. Model's
choices it rests on: log entries 30, 85 and 86. -/
def Obligations.MemoriesAndControlStores : Prop :=
  ∀ (s : State) (who : Initiator) (u : Fin 13) (m : Fin 48) (t : Tile) (v : Word) (fails : List (Nat × Nat)),
    let k := u.val
    let ms := unitMarchst k
    let stat := unitStat k
    let i := t.val
    let low (w : Word) (lo n : Nat) : Nat := w.toNat / 2 ^ lo % 2 ^ n
    let p := mget 0 s.scrubs (48 * k + m)
    let a := scrubAdr k m p
    let pass := if k < 12 then Adr.TIL_SCRUBPASS k else Adr.BLK_LIBSCRUBPASS
    (∀ n, scrubSize k m = some n → p < n → s.poreset = false → Clean s a (codeSize a) →
      (k < 12 → s.get (Adr.TIL_SCRUB k) Bits.TIL_SCRUB_EN = 1 ∧ s.sleep k < 2) →
      (k = 12 → s.get Adr.BLK_LIBSCRUB Bits.BLK_LIBSCRUB_EN = 1 ∧ s.standby = false) →
      (p + 1 < n → exec (.scrubRead u m) s = .next { s with scrubs := mset s.scrubs (48 * k + m) (p + 1) }) ∧
      (p + 1 = n → putBits (mget 0 s.scrubbed k) m 1 1 = 2 ^ scrubPointers k - 1 → ∃ x, exec (.scrubRead u m) s = .next x ∧
        mget 0 x.scrubs (48 * k + m) = 0 ∧ x.get pass ⟨0, 32⟩ = (s.get pass ⟨0, 32⟩ + 1) % 2 ^ 32)) ∧
    (∀ b rest, s.writebacks = b :: rest → codeBase b = b → ∃ x, exec .correctionWriteback s = .next x ∧ x.writebacks = rest ∧
      x.mem = s.mem ∧ (∀ o, s.codeStat b = .fixed o → x.codeStat b = .clean) ∧
      ((∀ o, s.codeStat b ≠ .fixed o) → x.marks = s.marks)) ∧
    (Accepts s who .r0 i 0 (Adr.TIL_MARCH i) →
      let refuses (op : Nat) : Prop := low v 26 2 = 3 ∨ (op = 2 ∧ s.mode ≠ 2 ∧ s.mode ≠ 3) ∨ (op = 3 ∧ 30 < low v 17 5) ∨
        s.get (Adr.TIL_MARCHST i) Bits.TIL_MARCHST_BUSY = 1 ∨ (s.power i).check.isSome = true
      let go (c : Instr) (op : Nat) : Prop :=
        (refuses op → exec c s = .next ((s.put (Adr.TIL_MEMSTAT i) Bits.TIL_MEMSTAT_MREF 1).answer who .ok)) ∧
        (¬ refuses op → ∃ x, exec c s = .next x ∧ x.get (Adr.TIL_MARCHST i) Bits.TIL_MARCHST_BUSY = 1 ∧
          x.get (Adr.TIL_MARCHST i) Bits.TIL_MARCHST_OP = op ∧ (∀ j, j < 16 → x.reg (Adr.TIL_MFAIL i j) = 0) ∧
          low (mget 0 x.marches i) 0 28 = low v 0 28 ∧ x.mem = s.mem)
      go (.marchTransparent who t v) 1 ∧ go (.marchCMinus who t v) 2 ∧ go (.bankMigration who t v) 3 ∧
        go (.rowRepair who t v) 4) ∧
    (Accepts s who .r0 0 0 Adr.BLK_LIBMARCH →
      let refuses (op : Nat) : Prop := (op = 2 ∧ s.mode ≠ 2 ∧ s.mode ≠ 3) ∨
        (op = 4 ∧ (v.getLsbD 23 = true ∨ 8191 < low v 0 14)) ∨ s.get Adr.BLK_LIBMARCHST Bits.BLK_LIBMARCHST_BUSY = 1
      let go (c : Instr) (op : Nat) : Prop :=
        (refuses op → exec c s = .next ((s.put Adr.BLK_LIBSTAT Bits.BLK_LIBSTAT_MREF 1).answer who .ok)) ∧
        (¬ refuses op → ∃ x, exec c s = .next x ∧ x.get Adr.BLK_LIBMARCHST Bits.BLK_LIBMARCHST_BUSY = 1 ∧
          x.get Adr.BLK_LIBMARCHST Bits.BLK_LIBMARCHST_OP = op ∧ (∀ j, j < 16 → x.reg (Adr.BLK_LMFAIL j) = 0) ∧
          low (mget 0 x.marches 12) 0 28 = low v 0 28 ∧ x.mem = s.mem)
      go (.libMarchTransparent who v) 1 ∧ go (.libMarchCMinus who v) 2 ∧ go (.libRowRepair who v) 4) ∧
    (s.marching k = true → s.marks = [] →
      let w := mget 0 s.marches k
      let op := s.get ms Bits.TIL_MARCHST_OP
      let ends (r : Nat) (x : State) : Prop := exec (.marchComplete u fails) s = .next x ∧ x.marching k = false ∧
        x.get ms Bits.TIL_MARCHST_RESULT = r ∧ x.get stat Bits.TIL_MEMSTAT_MDONE = 1
      let e := if k < 12 then low w 22 4 else low w 24 4
      let row := if k < 12 then low w 0 10 else low w 0 13
      (op = 1 → fails = [] → ∃ x, ends 1 x ∧ x.mem = s.mem) ∧
      (op = 2 → fails = [] → ∃ x, ends 1 x ∧ ∀ c, memRd x.mem c = if goTarget k w c = true then 0 else memRd s.mem c) ∧
      (∀ f, op = 1 → fails = [f] → meets k w.toNat f = true → (k < 12 ∧ 16 ≤ f.1) ∨ f.2 < rowCount k →
        s.mode = 0 ∨ s.noSpare k f [f] = false → ∃ x, ends 2 x ∧ x.mem = s.mem ∧
          x.get stat Bits.TIL_MEMSTAT_MFAIL = 1 ∧
          (k < 12 → 16 ≤ f.1 → x.reg (unitFail k 0) = BitVec.ofNat 64 (2 ^ 31 + 2 ^ 30 + (f.1 - 16) * 2 ^ 21 + f.2)) ∧
          (k = 12 ∨ f.1 < 16 → x.reg (unitFail k 0) = BitVec.ofNat 64 (2 ^ 31 + f.1 * 2 ^ 26 + f.2))) ∧
      (∀ q, op = 3 → k < 12 → s.freeBank k = some q → ∃ x, ends 1 x ∧ x.mem = s.mem ∧
        x.get stat Bits.TIL_MEMSTAT_REPNEW = 1 ∧
        ∀ l, l < 32 → x.remap k l = if l = low w 17 5 then q else s.remap k l) ∧
      (∀ j, op = 4 → s.freeSpare k e = some j → s.spareFor k e row = none → ∃ x, ends 1 x ∧ x.mem = s.mem ∧
        x.get stat Bits.TIL_MEMSTAT_REPNEW = 1 ∧ x.spareFor k e row = some j) ∧
      (op = 4 → s.freeSpare k e = none → ∃ x, ends 2 x ∧ x.mem = s.mem ∧ x.get stat Bits.TIL_MEMSTAT_NOSPARE = 1)) ∧
    (Accepts s who .r0 i 0 (Adr.UC_CMD i) →
      let st := Adr.UC_STAT i
      let refuses : Prop := s.get st Bits.UC_STAT_BUSY = 1 ∨ low v 26 2 = 3 ∨ low v 4 11 < low v 15 11 ∨
        (low v 26 2 = 0 ∧ (0x3FF < low v 4 11 ∨ s.get (Adr.UC_MASK i) Bits.UC_MASK_MASK < 2))
      let go (c : Instr) (op : Nat) : Prop :=
        (refuses → exec c s = .next ((s.put st Bits.UC_STAT_CREF 1).answer who .ok)) ∧
        (¬ refuses → ∃ x, exec c s = .next x ∧ x.get st Bits.UC_STAT_BUSY = 1 ∧ x.get st Bits.UC_STAT_RESULT = 0 ∧
          (mget 0 x.ucCmds i).toNat = op * 2 ^ 28 + low v 0 28 ∧ x.ucStores = s.ucStores)
      go (.ucReload who t v) 1 ∧ go (.ucVerify who t v) 2) ∧
    (s.get (Adr.UC_STAT i) Bits.UC_STAT_BUSY = 1 → (s.figure i).running = none →
      let c := mget 0 s.ucCmds i
      let kind := low c 26 2
      let gold (b : Nat) : Nat := if kind = 2 then (s.reg (Adr.UC_GOLDF i)).toNat + 16 * b
        else (s.reg (Adr.UC_GOLDV i)).toNat + kind * 0x1000 + 4 * b
      let n := if kind = 2 then 16 else 4
      low c 28 4 = 1 ∨ low c 28 4 = 2 → kind ≠ 3 →
      (∀ b, low c 15 11 ≤ b → b ≤ low c 4 11 →
        inLibrary (gold b) = true ∧ inLibrary (gold b + n - 1) = true ∧ Clean s (gold b) n) →
      ∃ x, exec (.ucCommandComplete t) s = .next x ∧ x.get (Adr.UC_STAT i) Bits.UC_STAT_BUSY = 0 ∧
        x.get (Adr.UC_STAT i) Bits.UC_STAT_RESULT = 1 ∧ x.mem = s.mem ∧
        ∀ b, low c 15 11 ≤ b → b ≤ low c 4 11 →
          (∀ e, e < 16 → getBit (s.get (Adr.UC_MASK i) Bits.UC_MASK_MASK) e = true → (kind = 0 ∧ e ≠ 0) ∨ (kind = 1 ∧ e = 0) →
            (x.storeWord (vertKey (16 * i + e) b)).val = BitVec.ofNat 128 (memValue s (gold b) 4) ∧
            (x.storeWord (vertKey (16 * i + e) b)).vertOk = true) ∧
          (kind = 2 → (x.storeWord (figKey i b)).val = BitVec.ofNat 128 (memValue s (gold b) 16) ∧
            (x.storeWord (figKey i b)).figOk = true))

/-! ### Resets, starts and the boot sequencer -/

/-- R564, R574, R579, R610 to R612, R622, R629: PORESET_N and VDD_CORE, the straps, what each start keeps, power-good,
the PLLs, and the commands of BLK_BOOTCTL. Model's choices it rests on: log entries 34, 94, 95 and 101. -/
def Obligations.ResetsAndStarts : Prop :=
  ∀ (s : State) (who : Initiator) (straps : BitVec 8) (k : Nat) (io ana core : Bool),
    let stat := Adr.BOOT_STAT
    let kept (u : State) : Prop := (∀ a, memRd u.mem a = if libKey a = true then memRd s.mem a else 0) ∧
      u.pending = s.pending ∧ (∀ a, keptPin a = true → (∀ t, t < 12 → a ≠ Adr.MRG_TSTAT t) → u.reg a = s.reg a) ∧
      (∀ a, keptPin a = false → angleCount a = false → a ≠ stat → a ≠ Adr.BOOT_STRAP →
        (∀ n, n < 8 → s.reelFenced n = true → a ≠ Adr.REEL_STAT n) →
        (∀ p, p < 4 → s.rlyIsFenced p = true → a ≠ Adr.RLY_PSTAT p) → u.reg a = regReset a) ∧
      (∀ n, n < 8 → s.reelFenced n = true → u.reelState n = reelFencedSt) ∧
      (∀ p, p < 4 → s.rlyIsFenced p = true → u.rlyState p = 4)
    let counts (u : State) : Prop := u.encoders = s.encoders ∧ ∀ a, angleCount a = true → u.reg a = s.reg a
    let tilesRun (u : State) : Prop := ∀ t, t < 12 → u.sleep t = 0 ∧ (u.power t).rail = 30 ∧ (u.power t).fclk = 40
    let locks := putBits s.plls k 1 1
    let good : State := { s with powerGood := bnat io + 2 * bnat ana + 4 * bnat core }
    let warm (u : State) (state : Nat) : Prop := u.mode = 0 ∧ u.get stat Bits.BOOT_STAT_KIND = 2 ∧ u.bootState = state ∧
      u.standby = false ∧ ∀ t : Tile, u.sleep t.val = 0
    (s.poreset = false → s.boot.cold = false → exec (.powerOnReset straps) s = .next s) ∧
    (s.fatal = false → s.boot.cold = true → ∃ u, exec (.powerOnReset straps) s = .next u ∧ u.poreset = false ∧
      u.boot.cold = false ∧ u.mode = 0 ∧ u.get stat Bits.BOOT_STAT_KIND = 0 ∧ u.mem = [] ∧ tilesRun u ∧ counts u ∧
      u.reg Adr.BOOT_STRAP = BitVec.ofNat 64 straps.toNat ∧
      ∀ t, t < 12 → u.reg (Adr.MRG_PAIR t) = BitVec.ofNat 64 (30 * 256 + 40)) ∧
    (s.fatal = false → s.boot.cold = false → s.poreset = true → ∃ u, exec (.powerOnReset straps) s = .next u ∧
      u.poreset = false ∧ u.mode = 0 ∧ u.get stat Bits.BOOT_STAT_KIND = 1 ∧ kept u ∧ tilesRun u ∧ counts u ∧
      u.reg Adr.BOOT_STRAP = BitVec.ofNat 64 straps.toNat) ∧
    (s.fatal = true → s.poreset = true → ∃ u, exec (.powerOnReset straps) s = .next u ∧ u.poreset = false ∧ u.fatal = true ∧
      u.mem = s.mem ∧ u.reg Adr.BOOT_STRAP = BitVec.ofNat 64 straps.toNat) ∧
    (s.fatal = false → ∃ u, exec .poresetAssert s = .next u ∧ u.poreset = true ∧ kept u ∧ u.mode = 0 ∧
      u.encoders = [] ∧ ∀ a, angleCount a = true → u.reg a = regReset a) ∧
    (s.fatal = true → ∃ u, exec .poresetAssert s = .next u ∧ u.poreset = true ∧ u.health.alive = false ∧
      u.regs = s.regs ∧ u.mem = s.mem ∧ u.engines = s.engines) ∧
    (∃ u, exec .powerRemoval s = .next u ∧ u.mem = [] ∧ u.boot.cold = true ∧ u.fatal = false ∧ (∀ a, u.reg a = regReset a) ∧
      u.poreset = s.poreset ∧ u.pending = s.pending) ∧
    (io = true → ana = true → core = true → exec (.powerGood io ana core) s = .next good) ∧
    ((io && ana && core) = false → exec (.powerGood io ana core) s = .next (good.reelsStop true)) ∧
    (k < 3 → s.poreset = false → s.standby = false →
      (k ≠ 1 → k ≠ 2 → s.mode ≠ 0 → exec (.pllLock k) s = .next { s with plls := locks }) ∧
      (∃ u, exec (.pllLock k) s = .next u ∧ (k = 1 → ∀ n : Reel, s.reelState n = reelDown → u.reelState n = reelSafe) ∧
        (s.mode = 0 → s.fatal = false → s.bootState = 0 → locks % 8 = 7 →
          u.bootState = 1 ∧ ∀ x, x < 13 → u.marching x = true))) ∧
    (3 ≤ k → k < 15 → s.sleep (k - 3) < 2 → s.poreset = false → exec (.pllLock k) s = .next { s with plls := locks }) ∧
    (k < 3 → s.poreset = false → s.standby = true → s.boot.waking = true →
      s.get Adr.MRG_BLKV Bits.MRG_BLKV_FLOOR ≤ s.get Adr.MRG_BLKV Bits.MRG_BLKV_VREQ →
      (locks % 8 = 7 → ∃ u, exec (.pllLock k) s = .next u ∧ warm u 2) ∧
      (locks % 8 ≠ 7 → exec (.pllLock k) s = .next { s with plls := locks })) ∧
    (Accepts s who .r0 0 0 Adr.BLK_BOOTCTL →
      let refused (c : Instr) : Prop := exec c s = .next ((s.put stat Bits.BOOT_STAT_CREF 1).answer who .ok)
      (s.mode ≠ 0 ∨ (s.bootState ≠ 10 ∧ s.bootState ≠ 11) → refused (.bootGo who) ∧ refused (.bootExt who)) ∧
      (s.mode = 0 → s.bootState = 10 → (∃ u, exec (.bootGo who) s = .next u ∧ u.bootState = 2) ∧
        (s.boot.tried = [] → ∃ u, exec (.bootExt who) s = .next u ∧ u.bootState = 3 ∧ u.boot.ext = true ∧
          u.get stat Bits.BOOT_STAT_SLOT = 2)) ∧
      (s.mode = 0 → s.bootState = 11 → (∃ u, exec (.bootGo who) s = .next u ∧ warm u 2) ∧
        ∃ u, exec (.bootExt who) s = .next u ∧ warm u 3 ∧ u.boot.ext = true ∧ u.get stat Bits.BOOT_STAT_SLOT = 2) ∧
      (s.mode ≠ 0 → s.fatal = false → ∃ u, exec (.bootRestart who) s = .next u ∧ warm u 2) ∧
      (s.mode = 0 ∨ s.fatal = true → refused (.bootRestart who)))

/-- R614, R618, R619, R621, R623, R624, R627, R628, R630: discovery, an attempt's header and sections, the order of
the sources, failure, step 7, the release of the keepers and the mode that the start ends in, and the tile restart.
The hash and the signature check that a header meets are the model's free values where they rest on the trust anchor.
Model's choices it rests on: log entries 6, 97, 98, 99 and 100. -/
def Obligations.BootSequenceAndTileRestart : Prop :=
  ∀ (s : State) (who : Initiator) (d : Sfdp) (bytes : List Byte) (ok : Bool) (t : Tile) (data : List (List Byte)),
    let stat := Adr.BOOT_STAT
    let runs : Prop := s.mode = 0 ∧ s.fatal = false ∧ s.poreset = false ∧ s.standby = false
    let order : List Nat := if s.boot.ext = true then [2] else if s.strapAlt = true then [1, 0] else [0, 1]
    let tries (u : State) (x : Nat) : Prop := u.bootState = 3 ∧ u.get stat Bits.BOOT_STAT_SLOT = x ∧
      u.get stat Bits.BOOT_STAT_ATTEMPTS = min 255 (s.get stat Bits.BOOT_STAT_ATTEMPTS + 1) ∧ u.boot.tried = s.boot.tried ++ [x]
    let failsWith (c : Instr) (reason : Nat) : Prop := ∃ u, exec c s = .next u ∧
      u.get stat Bits.BOOT_STAT_REASON = reason ∧
      (∀ x pre post, 2 ≤ reason → reason ≤ 10 → order = pre ++ x :: post → (∀ y ∈ pre, y ∈ s.boot.tried) →
        x ∉ s.boot.tried → tries u x) ∧
      ((2 ≤ reason ∧ reason ≤ 10 → ∀ x ∈ order, x ∈ s.boot.tried) → u.bootState = 11)
    let rest := s.boot.restarts.drop 1
    (runs → s.bootState = 2 →
      (d.good = false → failsWith (.flashDiscovery d) 1) ∧
      (d.good = true → s.boot.tried = [] → ∀ x l, order = x :: l → ∃ u, exec (.flashDiscovery d) s = .next u ∧ tries u x ∧
        u.reg Adr.BOOT_FSIZE = d.bytes.setWidth 64 ∧ (x ≠ 2 → u.get stat Bits.BOOT_STAT_BUS =
          if d.xspi = true ∧ s.reg Adr.BOOT_STRAP &&& 3 ≠ 1 then 1 else 2))) ∧
    (runs → s.bootState = 3 → s.boot.wrote = [] →
      (ok = false → failsWith (.headerCheck bytes ok) (if s.boot.ext = true then 14 else 2)) ∧
      (ok = true → hdr bytes 0 4 ≠ 0x534B4430 → failsWith (.headerCheck bytes ok) 3) ∧
      (∀ r, ok = true → headerReason bytes s.halfFlash = some r → failsWith (.headerCheck bytes ok) r) ∧
      (ok = true → headerReason bytes s.halfFlash = none → ∃ u, exec (.headerCheck bytes ok) s = .next u ∧
        u.boot.header = bytes ∧ (u.bootState = 4 ∨ u.bootState = 5))) ∧
    (∀ i, runs → s.bootState = 4 → (loadOrder s.boot.header)[s.boot.next]? = some i →
      let x := sectionAt s.boot.header i
      let l := bytes.take x.len
      (s.boot.wrote = [] → ok = false → failsWith (.sectionLoad bytes ok) (if s.boot.ext = true then 14 else 2)) ∧
      (s.boot.wrote = [] → ok = true → x.type ≠ 2 → sha256 l ≠ x.digest → failsWith (.sectionLoad bytes ok) 10) ∧
      (ok = true → sha256 l = x.digest → ∃ u, exec (.sectionLoad bytes ok) s = .next u ∧ s.boot.next < u.boot.next ∧
        (u.bootState = 4 ∨ u.bootState = 5) ∧ (x.type ≠ 2 → mget [] u.boot.held i = l ∧ u.mem = s.mem) ∧
        (x.type = 2 → Sound s → (∀ k, k < l.length → inChannels (x.dest + k) = false) → Wrote s u x.dest l))) ∧
    (runs → s.bootState = 5 → s.quickDone = true → s.startKind = 2 → s.heldOf 5 = [] →
      let entries := (s.heldOf 1).flatMap regsEntries
      (∀ e l, entries = e :: l → s.skipsEntry e = false → bootForbidden e.adr = true →
        failsWith .groupCommitStep 11) ∧
      (entries = [] → ∃ u, exec .groupCommitStep s = .next u ∧ (u.bootState = 6 ∨ u.bootState = 7) ∧
        ∀ t : Tile, s.tileFenced t = false → (u.power t).rail = u.vt t ∧ (u.power t).fclk = u.fn t ∧
          u.reg (Adr.UC_VERSION t) = BitVec.ofNat 64 (hdr s.boot.header 0xC 4))) ∧
    (runs → s.bootState = 7 →
      (s.keepers = [] → ∃ u, exec .relayWaitEnd s = .next u ∧ u.bootState = 9 ∧ u.mode = s.targetMode) ∧
      (s.keepers ≠ [] → (∀ t ∈ s.keepers, s.bit Adr.BOOT_KREADY t = false) → ∃ u, exec .relayWaitEnd s = .next u ∧
        u.bootState = 8 ∧ u.mode = 0 ∧ ∀ t ∈ s.keepers, u.bit (Adr.CAL_CTL t) 0 = true)) ∧
    (∀ g : Eng, who = .engine g → s.targetCode who Adr.BOOT_KDONE true = .ok →
      (s.ringOf who ≠ 0 ∨ g.val % 16 ≠ 0 → exec (.bootKdone who) s = .next (s.answer who .ok)) ∧
      (s.ringOf who = 0 → g.val % 16 = 0 → ∃ u, exec (.bootKdone who) s = .next u ∧
        u.bit Adr.BOOT_KREADY (tileOf g) = true ∧
        (runs → s.bootState = 8 → (∀ t ∈ s.keepers, t = tileOf g ∨ s.bit Adr.BOOT_KREADY t = true) →
          u.bootState = 9 ∧ u.mode = s.targetMode) ∧
        (s.mode ≠ 0 → u.mode = s.mode))) ∧
    (runs → s.bootState = 8 → failsWith .keeperWaitTimeout 12) ∧
    (s.mode ≠ 0 → s.fatal = false → s.poreset = false → s.boot.restarts = t.val :: rest → s.tileFenced t = false →
      s.sleep t ≠ 3 →
      (∀ r, headerReason bytes s.halfFlash = some r → s.changing t = false → s.marching t = false →
        ∃ u, exec (.tileRestart t bytes data) s = .next u ∧ u.bit Adr.BOOT_TRSTAT (12 + t) = true ∧
          u.bit Adr.BOOT_TRSTAT t = false ∧ u.get stat Bits.BOOT_STAT_REASON = r % 256 ∧ u.sleep t = 3) ∧
      (headerReason bytes s.halfFlash = none → hdr bytes 0x14 4 = (s.reg Adr.BOOT_IMGID).toNat →
        (∀ x ∈ sections bytes, x.forTile t = false) → getBit (hdr bytes 0x20 2) t = false →
        Leads (.tileRestart t bytes data) s
          { s with boot := { s.boot with restarts := s.boot.restarts.filter (· != t.val) } }
          [Adr.BOOT_TRSTAT, Adr.UC_VERSION t, Adr.UC_PATCH t] (fun u => u.bit Adr.BOOT_TRSTAT t = false ∧
            u.reg (Adr.UC_VERSION t) = BitVec.ofNat 64 (hdr bytes 0xC 4))))

/-! ### Debug -/

/-- R633 to R643, R647, R648, R656, R657, R659: the TAP's instructions, the fault record, the debug master's commands,
HALT and CLRPEND, trigger registers and post boxes. Model's choices it rests on: log entries 29, 60 and 61. -/
def Obligations.DebugAccess : Prop :=
  ∀ (s : State) (who : Initiator) (g h : Eng) (t : Tile) (n : Fin 4) (v : Word) (d : DWord) (a : Word) (size : Fin 4)
      (dr pins : BitVec 100),
    let stat := Adr.DBG_STAT
    let box := Adr.DBG_PB_STAT g
    let bytes := 2 ^ size.val
    let input (c : Nat) : Prop := (c < 12 ∧ c % 3 ≠ 0) ∨ (12 ≤ c ∧ c < 28 ∧ c % 2 = 1) ∨ c = 38 ∨ 46 ≤ c
    let boundary (x w : BitVec 100) : Prop := ∀ c, c < 50 → x.getLsbD (2 * c) = w.getLsbD (2 * c) ∧
      (input c → x.getLsbD (2 * c + 1) = false) ∧ (¬ input c → x.getLsbD (2 * c + 1) = w.getLsbD (2 * c + 1))
    let field (u : State) (lo w : Nat) : Nat := getBits u.tap.dr lo w
    let word (a : Nat) : Nat := (s.reg a).toNat % 2 ^ 32
    (exec .tapReset s = .next { s with tap := { s.tap with ir := 1 } }) ∧
    (exec .idcode s = .next { s with tap := { s.tap with ir := 1, dr := 0x200C056B } }) ∧
    (exec .bypass s = .next { s with tap := { s.tap with ir := 31, dr := 0 } }) ∧
    (∃ x y, exec (.samplePreload pins dr) s = .next { s with tap := { ir := 2, dr := y, cells := x } } ∧ boundary x dr ∧
      boundary (BitVec.ofNat 100 y) pins) ∧
    (s.mode = 2 → ∃ u, exec (.extest dr) s = .next u ∧ u.tap.ir = 0 ∧ boundary u.tap.cells dr ∧ u.regs = s.regs ∧
      ∀ c, c < 50 → input c → getBit u.tap.dr (2 * c + 1) = false) ∧
    (s.mode ≠ 2 → exec (.extest dr) s =
      .next { s.put stat Bits.DBG_STAT_EXREF 1 with tap := { s.tap with ir := 31, dr := 0 } }) ∧
    (∃ u, exec .fltread s = .next u ∧ u.tap.ir = 9 ∧ u.regs = s.regs ∧
      (∀ c, c < 3 → field u (128 * c) 32 = word (Adr.FLT_FIRST_SRC c) ∧
        field u (128 * c + 32) 32 = word (Adr.FLT_FIRST_SRC c + 4) ∧
        field u (128 * c + 64) 64 = (s.reg (Adr.FLT_FIRST_SRC c + 8)).toNat) ∧
      field u 384 32 = word Adr.BLK_MODE ∧ field u 416 32 = word Adr.FLT_CNT ∧ field u 448 32 = word Adr.FLT_FTILE ∧
      field u 480 32 = word Adr.FLT_FPORT ∧ field u 512 64 = s.time.toNat) ∧
    (∀ b, s.master.cmd = some b → ∀ c, c = .dbgaccRead a size ∨ c = .dbgaccWrite a size d →
      ∃ u, exec c s = .next u ∧ u.master = s.master ∧ u.tap.ir = 8 ∧ u.tap.dr % 4 = 3 ∧ u.regs = s.regs ∧ u.mem = s.mem) ∧
    (s.master.cmd = none →
      let last := s.master.last
      let status : Nat := match last.code with
        | .ok => 0
        | .err => 1
        | .notReady => 2
      let starts (c : Instr) (P : State → DbgAnswer → Prop) : Prop := ∃ u x, exec c s = .next u ∧
        u.master = { s.master with cmd := some a.toNat, ans := some x } ∧ u.tap.ir = 8 ∧
        u.tap.dr = status + bnat last.noPeek * 2 ^ 2 + s.master.lastAdr * 2 ^ 4 + last.data.toNat * 2 ^ 36 ∧ P u x
      let code (wr : Bool) : Code := if s.portCode .debug a.toNat wr ≠ .ok then s.portCode .debug a.toNat wr
        else if a.toNat % bytes ≠ 0 ∨ spanOf a.toNat bytes = .none then .err else .ok
      (code false ≠ .ok → starts (.dbgaccRead a size) (fun u x => x = { code := code false } ∧ u.regs = s.regs)) ∧
      (code true ≠ .ok → starts (.dbgaccWrite a size d) (fun u x =>
        x = { code := code true } ∧ u.regs = s.regs ∧ u.mem = s.mem)) ∧
      (code false = .ok → spanOf a.toNat bytes = .mem → Clean s a.toNat bytes → starts (.dbgaccRead a size) (fun u x =>
        x = { code := .ok, data := BitVec.ofNat 64 (memValue s a.toNat bytes) } ∧ u.mem = s.mem)) ∧
      (code false = .ok → spanOf a.toNat bytes = .remote → starts (.dbgaccRead a size) (fun u x =>
        x = { code := .ok, noPeek := true } ∧ u.get stat Bits.DBG_STAT_NOPEEK = 1)) ∧
      (code true = .ok → spanOf a.toNat bytes = .mem → s.writeErr a.toNat bytes = false → Sound s →
        starts (.dbgaccWrite a size d) (fun u x => x = { code := .ok } ∧ Wrote s u a.toNat (leBytes bytes d.toNat)))) ∧
    (∀ b x, s.master.cmd = some b → s.master.ans = some x →
      exec .debugMasterComplete s = .next { s with master := { lastAdr := b, last := x } }) ∧
    (Accepts s who .dbg 0 0 (Adr.DBG_ECTL g) →
      (s.engFenced g = true ∨ s.tileFenced (tileOf g) = true → exec (.halt who g) s = .next (s.answer who .ok)) ∧
      (s.engFenced g = false → s.tileFenced (tileOf g) = false → ∃ u, exec (.halt who g) s = .next u ∧
        u.eng g = { s.eng g with dbgPend := true, dbgReason := 1 } ∧ (∀ k, k ≠ g.val → u.eng k = s.eng k) ∧
        u.regs = s.regs ∧ u.mem = s.mem ∧ (s.sleep (tileOf g) = 1 ∨ s.sleep (tileOf g) = 2 → tileOf g ∈ u.wakes)) ∧
      exec (.clrpend who g) s = .next ((s.setEng g { s.eng g with dbgPend := false }).answer who .ok)) ∧
    (∀ r : Fin 3, Accepts s who .dbg 0 0 (Adr.DBG_TRG_CTL t n + 4 * r.val) →
      let ctl := Adr.DBG_TRG_CTL t n
      let cnt := Adr.DBG_TRG_CNT t n
      Leads (.triggerWrite who t n r v) s (s.answer who .ok) [ctl, ctl + 4, cnt] (fun u =>
        (r.val = 1 → u.reg (ctl + 4) = BitVec.ofNat 64 (s.writtenAt (ctl + 4) v.toNat) ∧ u.reg ctl = s.reg ctl ∧
          u.reg cnt = s.reg cnt) ∧
        (r.val = 0 → u.get ctl Bits.DBG_TRG_CTL_SEL = v.toNat % 2 ^ 14 ∧ u.get ctl Bits.DBG_TRG_CTL_EN = v.toNat / 2 ^ 31 ∧
          u.get ctl Bits.DBG_TRG_CTL_ACTION =
            if v.toNat / 2 ^ 28 % 2 ^ 3 ≤ 4 then v.toNat / 2 ^ 28 % 2 ^ 3 else s.get ctl Bits.DBG_TRG_CTL_ACTION) ∧
        (r.val = 2 → u.get cnt Bits.DBG_TRG_CNT_RELOAD = v.toNat / 2 ^ 16) ∧
        (r.val ≠ 1 → u.get cnt Bits.DBG_TRG_CNT_LEFT = u.get cnt Bits.DBG_TRG_CNT_RELOAD ∧
          (u.get ctl Bits.DBG_TRG_CTL_SEQ = 1 → u.get ctl Bits.DBG_TRG_CTL_ARMED = 0)))) ∧
    (s.targetCode .debug (Adr.DBG_PB_IN g) true = .ok →
      (s.get box Bits.DBG_PB_STAT_INFULL = 0 → Leads (.pbInWrite .debug g v) s
        (({ s with rings := s.rings ++ [⟨384 + g.val, .hw, none⟩] } : State).answer .debug .ok) [Adr.DBG_PB_IN g, box] (fun u =>
          u.reg (Adr.DBG_PB_IN g) = v.setWidth 64 ∧ u.get box Bits.DBG_PB_STAT_INFULL = 1)) ∧
      (s.get box Bits.DBG_PB_STAT_INFULL = 1 →
        exec (.pbInWrite .debug g v) s = .next ((s.put box Bits.DBG_PB_STAT_INOVR 1).answer .debug .ok))) ∧
    (s.targetCode .host (Adr.DBG_PB_IN g) true = .ok → exec (.pbInWrite .host g v) s = .next (s.answer .host .err)) ∧
    (Reads s who (Adr.DBG_PB_IN g) →
      (who = .engine g → exec (.pbInRead who g) s =
        .next ((s.put box Bits.DBG_PB_STAT_INFULL 0).answer who .ok (s.reg (Adr.DBG_PB_IN g)))) ∧
      (who ≠ .engine g → exec (.pbInRead who g) s = .next (s.answer who .ok (s.reg (Adr.DBG_PB_IN g))))) ∧
    (s.targetCode (.engine h) (Adr.DBG_PB_OUT g) true = .ok →
      (h = g → s.get box Bits.DBG_PB_STAT_OUTFULL = 0 → Leads (.pbOutWrite (.engine h) g v) s (s.answer (.engine h) .ok)
        [Adr.DBG_PB_OUT g, box] (fun u =>
          u.reg (Adr.DBG_PB_OUT g) = v.setWidth 64 ∧ u.get box Bits.DBG_PB_STAT_OUTFULL = 1)) ∧
      (h = g → s.get box Bits.DBG_PB_STAT_OUTFULL = 1 → exec (.pbOutWrite (.engine h) g v) s =
        .next ((s.put box Bits.DBG_PB_STAT_OUTOVR 1).answer (.engine h) .ok)) ∧
      (h ≠ g → ∃ u, exec (.pbOutWrite (.engine h) g v) s = .next u ∧ u.regs = s.regs ∧
        u.resp = some { who := .engine h, code := .err }))

/-! ### Ports and accesses of registers -/

/-- R9, R10, R12, R16, R415, R642, R661 to R666, R668 to R673, R681: the host target port's requests and responses,
the memory master port's requests, beats, responses and timeouts, reads that clear counts, and writes of registers.
Model's choices it rests on: log entries 25, 65 and 66. -/
def Obligations.PortsAndRegisterAccess : Prop :=
  ∀ (s : State) (who : Initiator) (wr : Bool) (a : Word) (size : Fin 4) (v : DWord) (data : BitVec 256) (last : Bool)
      (tag : BitVec 6) (t : Tile) (n : Reel) (p : Port) (k : Fin 16) (w : Word),
    let bytes := 2 ^ size.val
    let x := a.toNat
    let lane := 2 ^ (8 * (x % 8))
    let code := s.portCode .host x wr
    let req : HostReq := { id := s.hostId + 1, adr := x, size := bytes }
    let holds (u : State) (done : Option (Code × DWord)) : Prop := u.host = s.host ++ [{ req with done := done }] ∧
      u.hostId = s.hostId + 1
    let hreq (P : State → Prop) : Prop := ∃ u, exec (.hostRequest wr a size v) s = .next u ∧ P u
    let st := Adr.BLK_MMSTAT
    let cfg := Adr.BLK_MMCFG
    let beat := leBytes 32 data.toNat
    let m := mmKey wr tag.toNat
    let answers (c : Instr) (ok : Bool) (d : DWord) (P : State → Prop) : Prop := ∃ u, exec c s = .next u ∧ P u ∧
      u.resp = some (if ok = true then { who := .host, code := .ok, data := d } else { who := .host, code := .err })
    let counts (c : Instr) (a mask : Nat) : Prop := Reads s who a →
      (who = .debug → exec c s = .next (s.answer who .ok (s.reg a))) ∧
      (who ≠ .debug → Leads c s (s.answer who .ok (s.reg a)) [a] (fun u =>
        ∀ i, i < 64 → (u.reg a).getLsbD i = ((s.reg a).getLsbD i && !getBit mask i)))
    (s.readWait = [] → s.poreset = true ∨ s.powerGood ≠ 7 ∨ 8 ≤ s.host.length → exec (.hostRequest wr a size v) s = .next s) ∧
    (s.readWait = [] → s.poreset = false → s.powerGood = 7 → s.host.length < 8 → (∀ r ∈ s.host, r.id ≤ s.hostId) →
      (code ≠ .ok → hreq (fun u => holds u (some (code, 0)) ∧ u.regs = s.regs ∧ u.mem = s.mem)) ∧
      (code = .ok → x % bytes ≠ 0 → hreq (fun u => holds u (some (.err, 0)) ∧ u.regs = s.regs ∧ u.mem = s.mem)) ∧
      (code = .ok → x % bytes = 0 → spanOf x bytes = .mem → wr = false → Clean s x bytes → hreq (fun u =>
        holds u (some (.ok, BitVec.ofNat 64 (memValue s x bytes * lane))) ∧ u.mem = s.mem)) ∧
      (code = .ok → x % bytes = 0 → spanOf x bytes = .mem → wr = true → s.writeErr x bytes = false → Sound s →
        (∀ i, i < bytes → inChannels (x + i) = false) → hreq (fun u =>
          holds u (some (.ok, 0)) ∧ Wrote s u x (leBytes bytes (v.toNat / lane)))) ∧
      (code = .ok → x % bytes = 0 → spanOf x bytes = .ext → hreq (fun u => holds u none ∧ u.mem = s.mem ∧
        u.mmWait = s.mmWait ++ [{ who := .port .host (s.hostId + 1) bytes, write := wr, adr := x, len := bytes
                                  bytes := if wr then leBytes bytes (v.toNat / lane) else []
                                  base := if s.get cfg Bits.BLK_MMCFG_EN = 1 then some (s.get cfg Bits.BLK_MMCFG_BASE)
                                    else none }]))) ∧
    (∀ r rest, s.host = r :: rest → (r.done = none → exec .hostResponse s = .next s) ∧
      (∀ c d, r.done = some (c, d) → let q := ({ s with host := rest } : State).answer .host c d
        (c = .ok → exec .hostResponse s = .next q) ∧
        (c = .err → exec .hostResponse s = .next (q.put Adr.BLK_HPSTAT Bits.BLK_HPSTAT_ERRRSP 1)) ∧
        (c = .notReady → exec .hostResponse s = .next (q.put Adr.BLK_HPSTAT Bits.BLK_HPSTAT_NRDY 1)))) ∧
    (s.mode = 0 ∨ s.standby = true ∨ s.fatal = true ∨ s.poreset = true ∨ s.powerGood ≠ 7 → exec .mmRequest s = .next s) ∧
    (∀ r rest, s.mode ≠ 0 → s.standby = false → s.fatal = false → s.poreset = false → s.powerGood = 7 → s.mmWait = r :: rest →
      (∀ id z, r.base = none → r.who = .port .host id z →
        answers .mmRequest false 0 (fun u => u.mmWait = rest ∧ u.mmOut = s.mmOut)) ∧
      (∀ z, r.base ≠ none → (∀ y, y < z → mhas s.mmOut (mmKey r.write y) = true) →
        mhas s.mmOut (mmKey r.write z) = false → z < (if r.write = true then 16 else 64) →
        (∀ o ∈ s.mmOut, ¬ (r.write = true ∨ o.2.req.write = true) ∨ r.adr + r.len ≤ o.2.req.adr ∨
          o.2.req.adr + o.2.req.len ≤ r.adr) →
        exec .mmRequest s = .next { s with
          mmWait := rest, mmOut := mset s.mmOut (mmKey r.write z) { req := r }
          mmBeats := if r.write then s.mmBeats ++ [(z, (r.adr % 32 + r.len + 31) / 32)] else s.mmBeats })) ∧
    (∀ r : MmReq, r.external = r.base.getD 0 * 2 ^ 31 + (r.adr - 0x40000000) / 32 * 32) ∧
    (s.poreset = true → exec .mmWriteBeat s = .next s ∧ ∀ c, exec (.mmResponse wr tag c data last) s = .next s) ∧
    (∀ y z rest, s.poreset = false → s.mmBeats = (y, z) :: rest →
      exec .mmWriteBeat s = .next { s with mmBeats := if z ≤ 1 then rest else (y, z - 1) :: rest }) ∧
    (mhas s.mmOut m = false → exec (.mmTimeout wr tag) s = .next s ∧ (s.poreset = false → ∀ c,
      exec (.mmResponse wr tag c data last) s = .next (s.put st Bits.BLK_MMSTAT_STRAY 1))) ∧
    (∀ o id z, s.mmOut = [(m, o)] → o.req.who = .port .host id z → o.req.write = wr →
      let r := o.req
      let d : DWord := if wr = true then 0
        else BitVec.ofNat 64 (leVal (((beat.drop (r.adr % 32)).take r.len).take z) * 2 ^ (8 * (r.adr % 8)))
      (o.dead = true → exec (.mmTimeout wr tag) s = .next s) ∧
      (o.dead = false → answers (.mmTimeout wr tag) false 0 (fun u => u.mmOut = [(m, { o with dead := true })] ∧
        u.get st Bits.BLK_MMSTAT_TMO = 1 ∧
        u.get st Bits.BLK_MMSTAT_TMOCNT = min 255 (s.get st Bits.BLK_MMSTAT_TMOCNT + 1))) ∧
      (s.poreset = false → o.got = [] → o.bad = false → (r.adr % 32 + r.len + 31) / 32 = 1 →
        (o.dead = true → ∀ c, ∃ u, exec (.mmResponse wr tag c data last) s = .next u ∧ u.mmOut = [] ∧
          u.get st Bits.BLK_MMSTAT_LATE = 1 ∧ u.resp = s.resp) ∧
        (o.dead = false → answers (.mmResponse wr tag .ok data last) true d (fun u => u.mmOut = [] ∧ u.regs = s.regs) ∧
          answers (.mmResponse wr tag .err data last) false 0 (fun u => u.mmOut = [] ∧
            u.get st Bits.BLK_MMSTAT_MERR = 1)))) ∧
    counts (.skipsRead who t k) (Adr.ANG_CMP_STAT t k) 0xFFFF0000 ∧
    counts (.pwcntRead who t) (Adr.ANG_PWCNT t) 0xFFFFFFFF ∧ counts (.exstatRead who n) (Adr.REEL_EXSTAT n) 0xFFFF00 ∧
    counts (.reelCntRead who n) (Adr.REEL_CNT n) 0xFFFFFFFF ∧ counts (.exdropRead who n) (Adr.REEL_EXDROP n) 0xFFFF ∧
    counts (.lostevRead who t) (Adr.CAL_LOSTEV t) 0xFFFF ∧ counts (.memcntRead who t) (Adr.TIL_MEMCNT t) 0xFFFFFFFF ∧
    counts (.libcntRead who) Adr.BLK_LIBCNT 0xFFFFFFFF ∧ counts (.ucCntRead who t) (Adr.UC_CNT t) 0xFFFFFFFF ∧
    counts (.rdstatRead who) Adr.RLY_RDSTAT 0xFFFF0000 ∧ counts (.rlyCntRead who p) (Adr.RLY_CNT p) 0xFFFFFFFF ∧
    counts (.fltCntRead who) Adr.FLT_CNT 0xFFFFFFFF ∧ counts (.kcallRead who t) (Adr.TIL_KCALL t) 0xFFFF0000 ∧
    counts (.tptrRead who t) (Adr.DBG_TPTR t) 0xFFFF0000 ∧
    (Reads s who st → ∃ u d, exec (.mmstatRead who) s = .next u ∧ u.resp = some { who := who, code := .ok, data := d } ∧
      fldOf d Bits.BLK_MMSTAT_TMOCNT = s.get st Bits.BLK_MMSTAT_TMOCNT ∧
      (s.mmOut.length < 32 → fldOf d Bits.BLK_MMSTAT_OUTR = s.mmOut.countP (fun y => y.1 < 64) ∧
        fldOf d Bits.BLK_MMSTAT_OUTW = s.mmOut.countP (fun y => 64 ≤ y.1)) ∧
      u.get st Bits.BLK_MMSTAT_TMOCNT = if who = .debug then s.get st Bits.BLK_MMSTAT_TMOCNT else 0) ∧
    (Accepts s who .r0 t 0 (Adr.TIL_VBASE t) → ∃ u, exec (.tilVbaseWrite who t w) s = .next u ∧
      u.reg (Adr.TIL_VBASE t) = BitVec.ofNat 64 (s.writtenAt (Adr.TIL_VBASE t) w.toNat) ∧
      ∀ e, e < 16 → (u.eng (16 * t + e)).vectors.map (·.adr) =
        (List.range 6).map (fun i => (u.reg (Adr.TIL_VBASE t)).toNat + 64 * (12 + i))) ∧
    (inRegSpace x = false ∨ (s.targetCode who x true = .ok ∧ regRef x = none) →
      ∃ u, exec (.registerWrite who a size v) s = .next u ∧ u.regs = s.regs ∧ u.mem = s.mem ∧
        u.resp = some { who := who, code := .err }) ∧
    (∀ r, inRegSpace x = true → regRef x = some r → r.row.act = .plain → r.row.group = false → r.view = false →
      r.row.fits bytes = true → Accepts s who r.row.perm r.unit r.i x →
      (r.adr = Adr.UC_MASK r.unit → s.get (Adr.UC_STAT r.unit) Bits.UC_STAT_BUSY = 0) →
      Leads (.registerWrite who a size v) s (s.answer who .ok) [r.adr] (fun u =>
        u.reg r.adr = BitVec.ofNat 64 (r.row.written (s.reg r.adr).toNat (v.toNat % 2 ^ (8 * bytes))) ∧
        (r.row.limits = [] → ∀ i, i < 8 * bytes → (u.reg r.adr).getLsbD i =
          if getBit r.row.rw i = true then v.getLsbD i
          else (s.reg r.adr).getLsbD i && !(getBit r.row.w1c i && v.getLsbD i))))

/-! ### The block as a machine -/

/-- A step runs the command at the front of the queue on the state with the queue's rest; an empty queue leaves the
block as it is (the model's choice, log 1). Model's choices it rests on: log entries 1 and 2. -/
def Obligations.StepRunsTheFrontCommand : Prop :=
  ∀ s : State,
    (∀ c rest, s.pending = c :: rest → step s = exec c { s with pending := rest }) ∧ (s.pending = [] → step s = .next s)

/-- Every command leaves a next state, in every state, and leaves the queue alone. -/
def Obligations.EveryCommandCompletesAndKeepsTheQueue : Prop :=
  ∀ (c : Instr) (s : State), ∃ t, exec c s = .next t ∧ t.pending = s.pending

/-- Memory in State.reset has its canonical form. Model's choices it rests on: log entry 3. -/
def Obligations.MemoryFormAtReset : Prop := Memory.wf State.reset.mem = true ∧ ∀ a, memRd State.reset.mem a = 0

/-- Every step keeps memory in its canonical form: addresses rising, no byte listed that an unlisted one reads as.
Model's choices it rests on: log entry 3. -/
def Obligations.EveryStepKeepsTheMemoryForm : Prop :=
  ∀ s t : State, Memory.wf s.mem = true → step s = .next t → Memory.wf t.mem = true
end

