-- ==== Sys2Proof/Laws/State.lean ====
section
/-!
SUPPORT. What each named update of the state does to each field: one lemma per field and update, and what a register, an
engine or a field reads after an update.
-/

namespace Sys2Proof.Machine

/-! ### Sparse maps -/

@[simp] theorem mget_mset_same {α : Type} (d : α) (m : Map α) (i : Nat) (v : α) : mget d (mset m i v) i = v := by
  induction m with
  | nil => simp [mset, mget]
  | cons p r ih =>
    obtain ⟨k, x⟩ := p
    unfold mset
    split
    · simp [mget]
    · split
      · simp [mget]
      · simp_all [mget]

theorem mget_mset_ne {α : Type} (d : α) (m : Map α) {i j : Nat} (v : α) (h : j ≠ i) :
    mget d (mset m i v) j = mget d m j := by
  induction m with
  | nil => simp [mset, mget, Ne.symm h]
  | cons p r ih =>
    obtain ⟨k, x⟩ := p
    unfold mset
    split
    · simp_all [mget, Ne.symm h]
    · split
      · simp_all [mget, Ne.symm h]
      · simp only [mget, ih]

@[simp] theorem mset_mset {α : Type} (m : Map α) (i : Nat) (v w : α) : mset (mset m i v) i w = mset m i w := by
  induction m with
  | nil => simp [mset]
  | cons p r ih =>
    obtain ⟨k, x⟩ := p
    simp only [mset]
    split
    · simp [mset]
    · split
      · simp [mset]
      · simp_all [mset]

/-! ### State.setReg -/

@[simp] theorem State.setReg_pending (s : State) (a : Nat) (v : DWord) : (s.setReg a v).pending = s.pending := rfl
@[simp] theorem State.setReg_regs (s : State) (a : Nat) (v : DWord) : (s.setReg a v).regs = mset s.regs a v := rfl
@[simp] theorem State.setReg_shadow (s : State) (a : Nat) (v : DWord) : (s.setReg a v).shadow = s.shadow := rfl
@[simp] theorem State.setReg_mem (s : State) (a : Nat) (v : DWord) : (s.setReg a v).mem = s.mem := rfl
@[simp] theorem State.setReg_marks (s : State) (a : Nat) (v : DWord) : (s.setReg a v).marks = s.marks := rfl
@[simp] theorem State.setReg_writebacks (s : State) (a : Nat) (v : DWord) : (s.setReg a v).writebacks = s.writebacks := rfl
@[simp] theorem State.setReg_marches (s : State) (a : Nat) (v : DWord) : (s.setReg a v).marches = s.marches := rfl
@[simp] theorem State.setReg_scrubs (s : State) (a : Nat) (v : DWord) : (s.setReg a v).scrubs = s.scrubs := rfl
@[simp] theorem State.setReg_scrubbed (s : State) (a : Nat) (v : DWord) : (s.setReg a v).scrubbed = s.scrubbed := rfl
@[simp] theorem State.setReg_engines (s : State) (a : Nat) (v : DWord) : (s.setReg a v).engines = s.engines := rfl
@[simp] theorem State.setReg_ready (s : State) (a : Nat) (v : DWord) : (s.setReg a v).ready = s.ready := rfl
@[simp] theorem State.setReg_reports (s : State) (a : Nat) (v : DWord) : (s.setReg a v).reports = s.reports := rfl
@[simp] theorem State.setReg_fbclk (s : State) (a : Nat) (v : DWord) : (s.setReg a v).fbclk = s.fbclk := rfl
@[simp] theorem State.setReg_hwFenced (s : State) (a : Nat) (v : DWord) : (s.setReg a v).hwFenced = s.hwFenced := rfl
@[simp] theorem State.setReg_health (s : State) (a : Nat) (v : DWord) : (s.setReg a v).health = s.health := rfl
@[simp] theorem State.setReg_rings (s : State) (a : Nat) (v : DWord) : (s.setReg a v).rings = s.rings := rfl
@[simp] theorem State.setReg_wakes (s : State) (a : Nat) (v : DWord) : (s.setReg a v).wakes = s.wakes := rfl
@[simp] theorem State.setReg_encoders (s : State) (a : Nat) (v : DWord) : (s.setReg a v).encoders = s.encoders := rfl
@[simp] theorem State.setReg_bus (s : State) (a : Nat) (v : DWord) : (s.setReg a v).bus = s.bus := rfl
@[simp] theorem State.setReg_rebased (s : State) (a : Nat) (v : DWord) : (s.setReg a v).rebased = s.rebased := rfl
@[simp] theorem State.setReg_clock (s : State) (a : Nat) (v : DWord) : (s.setReg a v).clock = s.clock := rfl
@[simp] theorem State.setReg_ucStores (s : State) (a : Nat) (v : DWord) : (s.setReg a v).ucStores = s.ucStores := rfl
@[simp] theorem State.setReg_ucCmds (s : State) (a : Nat) (v : DWord) : (s.setReg a v).ucCmds = s.ucCmds := rfl
@[simp] theorem State.setReg_figures (s : State) (a : Nat) (v : DWord) : (s.setReg a v).figures = s.figures := rfl
@[simp] theorem State.setReg_reels (s : State) (a : Nat) (v : DWord) : (s.setReg a v).reels = s.reels := rfl
@[simp] theorem State.setReg_mmWait (s : State) (a : Nat) (v : DWord) : (s.setReg a v).mmWait = s.mmWait := rfl
@[simp] theorem State.setReg_mmOut (s : State) (a : Nat) (v : DWord) : (s.setReg a v).mmOut = s.mmOut := rfl
@[simp] theorem State.setReg_mmBeats (s : State) (a : Nat) (v : DWord) : (s.setReg a v).mmBeats = s.mmBeats := rfl
@[simp] theorem State.setReg_host (s : State) (a : Nat) (v : DWord) : (s.setReg a v).host = s.host := rfl
@[simp] theorem State.setReg_hostId (s : State) (a : Nat) (v : DWord) : (s.setReg a v).hostId = s.hostId := rfl
@[simp] theorem State.setReg_hostNow (s : State) (a : Nat) (v : DWord) : (s.setReg a v).hostNow = s.hostNow := rfl
@[simp] theorem State.setReg_relays (s : State) (a : Nat) (v : DWord) : (s.setReg a v).relays = s.relays := rfl
@[simp] theorem State.setReg_inbox (s : State) (a : Nat) (v : DWord) : (s.setReg a v).inbox = s.inbox := rfl
@[simp] theorem State.setReg_letterId (s : State) (a : Nat) (v : DWord) : (s.setReg a v).letterId = s.letterId := rfl
@[simp] theorem State.setReg_readTags (s : State) (a : Nat) (v : DWord) : (s.setReg a v).readTags = s.readTags := rfl
@[simp] theorem State.setReg_storeWait (s : State) (a : Nat) (v : DWord) : (s.setReg a v).storeWait = s.storeWait := rfl
@[simp] theorem State.setReg_readWait (s : State) (a : Nat) (v : DWord) : (s.setReg a v).readWait = s.readWait := rfl
@[simp] theorem State.setReg_stepTime (s : State) (a : Nat) (v : DWord) : (s.setReg a v).stepTime = s.stepTime := rfl
@[simp] theorem State.setReg_tilePower (s : State) (a : Nat) (v : DWord) : (s.setReg a v).tilePower = s.tilePower := rfl
@[simp] theorem State.setReg_sweepNext (s : State) (a : Nat) (v : DWord) : (s.setReg a v).sweepNext = s.sweepNext := rfl
@[simp] theorem State.setReg_logSeq (s : State) (a : Nat) (v : DWord) : (s.setReg a v).logSeq = s.logSeq := rfl
@[simp] theorem State.setReg_powerGood (s : State) (a : Nat) (v : DWord) : (s.setReg a v).powerGood = s.powerGood := rfl
@[simp] theorem State.setReg_boot (s : State) (a : Nat) (v : DWord) : (s.setReg a v).boot = s.boot := rfl
@[simp] theorem State.setReg_tap (s : State) (a : Nat) (v : DWord) : (s.setReg a v).tap = s.tap := rfl
@[simp] theorem State.setReg_master (s : State) (a : Nat) (v : DWord) : (s.setReg a v).master = s.master := rfl
@[simp] theorem State.setReg_poreset (s : State) (a : Nat) (v : DWord) : (s.setReg a v).poreset = s.poreset := rfl
@[simp] theorem State.setReg_plls (s : State) (a : Nat) (v : DWord) : (s.setReg a v).plls = s.plls := rfl
@[simp] theorem State.setReg_gmEpoch (s : State) (a : Nat) (v : DWord) : (s.setReg a v).gmEpoch = s.gmEpoch := rfl
@[simp] theorem State.setReg_resp (s : State) (a : Nat) (v : DWord) : (s.setReg a v).resp = s.resp := rfl
@[simp] theorem State.setReg_fresh (s : State) (a : Nat) (v : DWord) : (s.setReg a v).fresh = s.fresh := rfl

/-! ### State.setShadow -/

@[simp] theorem State.setShadow_pending (s : State) (a : Nat) (v : DWord) : (s.setShadow a v).pending = s.pending := rfl
@[simp] theorem State.setShadow_regs (s : State) (a : Nat) (v : DWord) : (s.setShadow a v).regs = s.regs := rfl
@[simp] theorem State.setShadow_shadow (s : State) (a : Nat) (v : DWord) : (s.setShadow a v).shadow = mset s.shadow a v := rfl
@[simp] theorem State.setShadow_mem (s : State) (a : Nat) (v : DWord) : (s.setShadow a v).mem = s.mem := rfl
@[simp] theorem State.setShadow_marks (s : State) (a : Nat) (v : DWord) : (s.setShadow a v).marks = s.marks := rfl
@[simp] theorem State.setShadow_writebacks (s : State) (a : Nat) (v : DWord) : (s.setShadow a v).writebacks = s.writebacks := rfl
@[simp] theorem State.setShadow_marches (s : State) (a : Nat) (v : DWord) : (s.setShadow a v).marches = s.marches := rfl
@[simp] theorem State.setShadow_scrubs (s : State) (a : Nat) (v : DWord) : (s.setShadow a v).scrubs = s.scrubs := rfl
@[simp] theorem State.setShadow_scrubbed (s : State) (a : Nat) (v : DWord) : (s.setShadow a v).scrubbed = s.scrubbed := rfl
@[simp] theorem State.setShadow_engines (s : State) (a : Nat) (v : DWord) : (s.setShadow a v).engines = s.engines := rfl
@[simp] theorem State.setShadow_ready (s : State) (a : Nat) (v : DWord) : (s.setShadow a v).ready = s.ready := rfl
@[simp] theorem State.setShadow_reports (s : State) (a : Nat) (v : DWord) : (s.setShadow a v).reports = s.reports := rfl
@[simp] theorem State.setShadow_fbclk (s : State) (a : Nat) (v : DWord) : (s.setShadow a v).fbclk = s.fbclk := rfl
@[simp] theorem State.setShadow_hwFenced (s : State) (a : Nat) (v : DWord) : (s.setShadow a v).hwFenced = s.hwFenced := rfl
@[simp] theorem State.setShadow_health (s : State) (a : Nat) (v : DWord) : (s.setShadow a v).health = s.health := rfl
@[simp] theorem State.setShadow_rings (s : State) (a : Nat) (v : DWord) : (s.setShadow a v).rings = s.rings := rfl
@[simp] theorem State.setShadow_wakes (s : State) (a : Nat) (v : DWord) : (s.setShadow a v).wakes = s.wakes := rfl
@[simp] theorem State.setShadow_encoders (s : State) (a : Nat) (v : DWord) : (s.setShadow a v).encoders = s.encoders := rfl
@[simp] theorem State.setShadow_bus (s : State) (a : Nat) (v : DWord) : (s.setShadow a v).bus = s.bus := rfl
@[simp] theorem State.setShadow_rebased (s : State) (a : Nat) (v : DWord) : (s.setShadow a v).rebased = s.rebased := rfl
@[simp] theorem State.setShadow_clock (s : State) (a : Nat) (v : DWord) : (s.setShadow a v).clock = s.clock := rfl
@[simp] theorem State.setShadow_ucStores (s : State) (a : Nat) (v : DWord) : (s.setShadow a v).ucStores = s.ucStores := rfl
@[simp] theorem State.setShadow_ucCmds (s : State) (a : Nat) (v : DWord) : (s.setShadow a v).ucCmds = s.ucCmds := rfl
@[simp] theorem State.setShadow_figures (s : State) (a : Nat) (v : DWord) : (s.setShadow a v).figures = s.figures := rfl
@[simp] theorem State.setShadow_reels (s : State) (a : Nat) (v : DWord) : (s.setShadow a v).reels = s.reels := rfl
@[simp] theorem State.setShadow_mmWait (s : State) (a : Nat) (v : DWord) : (s.setShadow a v).mmWait = s.mmWait := rfl
@[simp] theorem State.setShadow_mmOut (s : State) (a : Nat) (v : DWord) : (s.setShadow a v).mmOut = s.mmOut := rfl
@[simp] theorem State.setShadow_mmBeats (s : State) (a : Nat) (v : DWord) : (s.setShadow a v).mmBeats = s.mmBeats := rfl
@[simp] theorem State.setShadow_host (s : State) (a : Nat) (v : DWord) : (s.setShadow a v).host = s.host := rfl
@[simp] theorem State.setShadow_hostId (s : State) (a : Nat) (v : DWord) : (s.setShadow a v).hostId = s.hostId := rfl
@[simp] theorem State.setShadow_hostNow (s : State) (a : Nat) (v : DWord) : (s.setShadow a v).hostNow = s.hostNow := rfl
@[simp] theorem State.setShadow_relays (s : State) (a : Nat) (v : DWord) : (s.setShadow a v).relays = s.relays := rfl
@[simp] theorem State.setShadow_inbox (s : State) (a : Nat) (v : DWord) : (s.setShadow a v).inbox = s.inbox := rfl
@[simp] theorem State.setShadow_letterId (s : State) (a : Nat) (v : DWord) : (s.setShadow a v).letterId = s.letterId := rfl
@[simp] theorem State.setShadow_readTags (s : State) (a : Nat) (v : DWord) : (s.setShadow a v).readTags = s.readTags := rfl
@[simp] theorem State.setShadow_storeWait (s : State) (a : Nat) (v : DWord) : (s.setShadow a v).storeWait = s.storeWait := rfl
@[simp] theorem State.setShadow_readWait (s : State) (a : Nat) (v : DWord) : (s.setShadow a v).readWait = s.readWait := rfl
@[simp] theorem State.setShadow_stepTime (s : State) (a : Nat) (v : DWord) : (s.setShadow a v).stepTime = s.stepTime := rfl
@[simp] theorem State.setShadow_tilePower (s : State) (a : Nat) (v : DWord) : (s.setShadow a v).tilePower = s.tilePower := rfl
@[simp] theorem State.setShadow_sweepNext (s : State) (a : Nat) (v : DWord) : (s.setShadow a v).sweepNext = s.sweepNext := rfl
@[simp] theorem State.setShadow_logSeq (s : State) (a : Nat) (v : DWord) : (s.setShadow a v).logSeq = s.logSeq := rfl
@[simp] theorem State.setShadow_powerGood (s : State) (a : Nat) (v : DWord) : (s.setShadow a v).powerGood = s.powerGood := rfl
@[simp] theorem State.setShadow_boot (s : State) (a : Nat) (v : DWord) : (s.setShadow a v).boot = s.boot := rfl
@[simp] theorem State.setShadow_tap (s : State) (a : Nat) (v : DWord) : (s.setShadow a v).tap = s.tap := rfl
@[simp] theorem State.setShadow_master (s : State) (a : Nat) (v : DWord) : (s.setShadow a v).master = s.master := rfl
@[simp] theorem State.setShadow_poreset (s : State) (a : Nat) (v : DWord) : (s.setShadow a v).poreset = s.poreset := rfl
@[simp] theorem State.setShadow_plls (s : State) (a : Nat) (v : DWord) : (s.setShadow a v).plls = s.plls := rfl
@[simp] theorem State.setShadow_gmEpoch (s : State) (a : Nat) (v : DWord) : (s.setShadow a v).gmEpoch = s.gmEpoch := rfl
@[simp] theorem State.setShadow_resp (s : State) (a : Nat) (v : DWord) : (s.setShadow a v).resp = s.resp := rfl
@[simp] theorem State.setShadow_fresh (s : State) (a : Nat) (v : DWord) : (s.setShadow a v).fresh = s.fresh := rfl

/-! ### State.setEng -/

@[simp] theorem State.setEng_pending (s : State) (g : Nat) (e : Engine) : (s.setEng g e).pending = s.pending := rfl
@[simp] theorem State.setEng_regs (s : State) (g : Nat) (e : Engine) : (s.setEng g e).regs = s.regs := rfl
@[simp] theorem State.setEng_shadow (s : State) (g : Nat) (e : Engine) : (s.setEng g e).shadow = s.shadow := rfl
@[simp] theorem State.setEng_mem (s : State) (g : Nat) (e : Engine) : (s.setEng g e).mem = s.mem := rfl
@[simp] theorem State.setEng_marks (s : State) (g : Nat) (e : Engine) : (s.setEng g e).marks = s.marks := rfl
@[simp] theorem State.setEng_writebacks (s : State) (g : Nat) (e : Engine) : (s.setEng g e).writebacks = s.writebacks := rfl
@[simp] theorem State.setEng_marches (s : State) (g : Nat) (e : Engine) : (s.setEng g e).marches = s.marches := rfl
@[simp] theorem State.setEng_scrubs (s : State) (g : Nat) (e : Engine) : (s.setEng g e).scrubs = s.scrubs := rfl
@[simp] theorem State.setEng_scrubbed (s : State) (g : Nat) (e : Engine) : (s.setEng g e).scrubbed = s.scrubbed := rfl
@[simp] theorem State.setEng_engines (s : State) (g : Nat) (e : Engine) : (s.setEng g e).engines = mset s.engines g e := rfl
@[simp] theorem State.setEng_ready (s : State) (g : Nat) (e : Engine) : (s.setEng g e).ready = s.ready := rfl
@[simp] theorem State.setEng_reports (s : State) (g : Nat) (e : Engine) : (s.setEng g e).reports = s.reports := rfl
@[simp] theorem State.setEng_fbclk (s : State) (g : Nat) (e : Engine) : (s.setEng g e).fbclk = s.fbclk := rfl
@[simp] theorem State.setEng_hwFenced (s : State) (g : Nat) (e : Engine) : (s.setEng g e).hwFenced = s.hwFenced := rfl
@[simp] theorem State.setEng_health (s : State) (g : Nat) (e : Engine) : (s.setEng g e).health = s.health := rfl
@[simp] theorem State.setEng_rings (s : State) (g : Nat) (e : Engine) : (s.setEng g e).rings = s.rings := rfl
@[simp] theorem State.setEng_wakes (s : State) (g : Nat) (e : Engine) : (s.setEng g e).wakes = s.wakes := rfl
@[simp] theorem State.setEng_encoders (s : State) (g : Nat) (e : Engine) : (s.setEng g e).encoders = s.encoders := rfl
@[simp] theorem State.setEng_bus (s : State) (g : Nat) (e : Engine) : (s.setEng g e).bus = s.bus := rfl
@[simp] theorem State.setEng_rebased (s : State) (g : Nat) (e : Engine) : (s.setEng g e).rebased = s.rebased := rfl
@[simp] theorem State.setEng_clock (s : State) (g : Nat) (e : Engine) : (s.setEng g e).clock = s.clock := rfl
@[simp] theorem State.setEng_ucStores (s : State) (g : Nat) (e : Engine) : (s.setEng g e).ucStores = s.ucStores := rfl
@[simp] theorem State.setEng_ucCmds (s : State) (g : Nat) (e : Engine) : (s.setEng g e).ucCmds = s.ucCmds := rfl
@[simp] theorem State.setEng_figures (s : State) (g : Nat) (e : Engine) : (s.setEng g e).figures = s.figures := rfl
@[simp] theorem State.setEng_reels (s : State) (g : Nat) (e : Engine) : (s.setEng g e).reels = s.reels := rfl
@[simp] theorem State.setEng_mmWait (s : State) (g : Nat) (e : Engine) : (s.setEng g e).mmWait = s.mmWait := rfl
@[simp] theorem State.setEng_mmOut (s : State) (g : Nat) (e : Engine) : (s.setEng g e).mmOut = s.mmOut := rfl
@[simp] theorem State.setEng_mmBeats (s : State) (g : Nat) (e : Engine) : (s.setEng g e).mmBeats = s.mmBeats := rfl
@[simp] theorem State.setEng_host (s : State) (g : Nat) (e : Engine) : (s.setEng g e).host = s.host := rfl
@[simp] theorem State.setEng_hostId (s : State) (g : Nat) (e : Engine) : (s.setEng g e).hostId = s.hostId := rfl
@[simp] theorem State.setEng_hostNow (s : State) (g : Nat) (e : Engine) : (s.setEng g e).hostNow = s.hostNow := rfl
@[simp] theorem State.setEng_relays (s : State) (g : Nat) (e : Engine) : (s.setEng g e).relays = s.relays := rfl
@[simp] theorem State.setEng_inbox (s : State) (g : Nat) (e : Engine) : (s.setEng g e).inbox = s.inbox := rfl
@[simp] theorem State.setEng_letterId (s : State) (g : Nat) (e : Engine) : (s.setEng g e).letterId = s.letterId := rfl
@[simp] theorem State.setEng_readTags (s : State) (g : Nat) (e : Engine) : (s.setEng g e).readTags = s.readTags := rfl
@[simp] theorem State.setEng_storeWait (s : State) (g : Nat) (e : Engine) : (s.setEng g e).storeWait = s.storeWait := rfl
@[simp] theorem State.setEng_readWait (s : State) (g : Nat) (e : Engine) : (s.setEng g e).readWait = s.readWait := rfl
@[simp] theorem State.setEng_stepTime (s : State) (g : Nat) (e : Engine) : (s.setEng g e).stepTime = s.stepTime := rfl
@[simp] theorem State.setEng_tilePower (s : State) (g : Nat) (e : Engine) : (s.setEng g e).tilePower = s.tilePower := rfl
@[simp] theorem State.setEng_sweepNext (s : State) (g : Nat) (e : Engine) : (s.setEng g e).sweepNext = s.sweepNext := rfl
@[simp] theorem State.setEng_logSeq (s : State) (g : Nat) (e : Engine) : (s.setEng g e).logSeq = s.logSeq := rfl
@[simp] theorem State.setEng_powerGood (s : State) (g : Nat) (e : Engine) : (s.setEng g e).powerGood = s.powerGood := rfl
@[simp] theorem State.setEng_boot (s : State) (g : Nat) (e : Engine) : (s.setEng g e).boot = s.boot := rfl
@[simp] theorem State.setEng_tap (s : State) (g : Nat) (e : Engine) : (s.setEng g e).tap = s.tap := rfl
@[simp] theorem State.setEng_master (s : State) (g : Nat) (e : Engine) : (s.setEng g e).master = s.master := rfl
@[simp] theorem State.setEng_poreset (s : State) (g : Nat) (e : Engine) : (s.setEng g e).poreset = s.poreset := rfl
@[simp] theorem State.setEng_plls (s : State) (g : Nat) (e : Engine) : (s.setEng g e).plls = s.plls := rfl
@[simp] theorem State.setEng_gmEpoch (s : State) (g : Nat) (e : Engine) : (s.setEng g e).gmEpoch = s.gmEpoch := rfl
@[simp] theorem State.setEng_resp (s : State) (g : Nat) (e : Engine) : (s.setEng g e).resp = s.resp := rfl
@[simp] theorem State.setEng_fresh (s : State) (g : Nat) (e : Engine) : (s.setEng g e).fresh = s.fresh := rfl

/-! ### State.setEnc -/

@[simp] theorem State.setEnc_pending (s : State) (n : Nat) (x : Encoder) : (s.setEnc n x).pending = s.pending := rfl
@[simp] theorem State.setEnc_regs (s : State) (n : Nat) (x : Encoder) : (s.setEnc n x).regs = s.regs := rfl
@[simp] theorem State.setEnc_shadow (s : State) (n : Nat) (x : Encoder) : (s.setEnc n x).shadow = s.shadow := rfl
@[simp] theorem State.setEnc_mem (s : State) (n : Nat) (x : Encoder) : (s.setEnc n x).mem = s.mem := rfl
@[simp] theorem State.setEnc_marks (s : State) (n : Nat) (x : Encoder) : (s.setEnc n x).marks = s.marks := rfl
@[simp] theorem State.setEnc_writebacks (s : State) (n : Nat) (x : Encoder) : (s.setEnc n x).writebacks = s.writebacks := rfl
@[simp] theorem State.setEnc_marches (s : State) (n : Nat) (x : Encoder) : (s.setEnc n x).marches = s.marches := rfl
@[simp] theorem State.setEnc_scrubs (s : State) (n : Nat) (x : Encoder) : (s.setEnc n x).scrubs = s.scrubs := rfl
@[simp] theorem State.setEnc_scrubbed (s : State) (n : Nat) (x : Encoder) : (s.setEnc n x).scrubbed = s.scrubbed := rfl
@[simp] theorem State.setEnc_engines (s : State) (n : Nat) (x : Encoder) : (s.setEnc n x).engines = s.engines := rfl
@[simp] theorem State.setEnc_ready (s : State) (n : Nat) (x : Encoder) : (s.setEnc n x).ready = s.ready := rfl
@[simp] theorem State.setEnc_reports (s : State) (n : Nat) (x : Encoder) : (s.setEnc n x).reports = s.reports := rfl
@[simp] theorem State.setEnc_fbclk (s : State) (n : Nat) (x : Encoder) : (s.setEnc n x).fbclk = s.fbclk := rfl
@[simp] theorem State.setEnc_hwFenced (s : State) (n : Nat) (x : Encoder) : (s.setEnc n x).hwFenced = s.hwFenced := rfl
@[simp] theorem State.setEnc_health (s : State) (n : Nat) (x : Encoder) : (s.setEnc n x).health = s.health := rfl
@[simp] theorem State.setEnc_rings (s : State) (n : Nat) (x : Encoder) : (s.setEnc n x).rings = s.rings := rfl
@[simp] theorem State.setEnc_wakes (s : State) (n : Nat) (x : Encoder) : (s.setEnc n x).wakes = s.wakes := rfl
@[simp] theorem State.setEnc_encoders (s : State) (n : Nat) (x : Encoder) : (s.setEnc n x).encoders = mset s.encoders n x := rfl
@[simp] theorem State.setEnc_bus (s : State) (n : Nat) (x : Encoder) : (s.setEnc n x).bus = s.bus := rfl
@[simp] theorem State.setEnc_rebased (s : State) (n : Nat) (x : Encoder) : (s.setEnc n x).rebased = s.rebased := rfl
@[simp] theorem State.setEnc_clock (s : State) (n : Nat) (x : Encoder) : (s.setEnc n x).clock = s.clock := rfl
@[simp] theorem State.setEnc_ucStores (s : State) (n : Nat) (x : Encoder) : (s.setEnc n x).ucStores = s.ucStores := rfl
@[simp] theorem State.setEnc_ucCmds (s : State) (n : Nat) (x : Encoder) : (s.setEnc n x).ucCmds = s.ucCmds := rfl
@[simp] theorem State.setEnc_figures (s : State) (n : Nat) (x : Encoder) : (s.setEnc n x).figures = s.figures := rfl
@[simp] theorem State.setEnc_reels (s : State) (n : Nat) (x : Encoder) : (s.setEnc n x).reels = s.reels := rfl
@[simp] theorem State.setEnc_mmWait (s : State) (n : Nat) (x : Encoder) : (s.setEnc n x).mmWait = s.mmWait := rfl
@[simp] theorem State.setEnc_mmOut (s : State) (n : Nat) (x : Encoder) : (s.setEnc n x).mmOut = s.mmOut := rfl
@[simp] theorem State.setEnc_mmBeats (s : State) (n : Nat) (x : Encoder) : (s.setEnc n x).mmBeats = s.mmBeats := rfl
@[simp] theorem State.setEnc_host (s : State) (n : Nat) (x : Encoder) : (s.setEnc n x).host = s.host := rfl
@[simp] theorem State.setEnc_hostId (s : State) (n : Nat) (x : Encoder) : (s.setEnc n x).hostId = s.hostId := rfl
@[simp] theorem State.setEnc_hostNow (s : State) (n : Nat) (x : Encoder) : (s.setEnc n x).hostNow = s.hostNow := rfl
@[simp] theorem State.setEnc_relays (s : State) (n : Nat) (x : Encoder) : (s.setEnc n x).relays = s.relays := rfl
@[simp] theorem State.setEnc_inbox (s : State) (n : Nat) (x : Encoder) : (s.setEnc n x).inbox = s.inbox := rfl
@[simp] theorem State.setEnc_letterId (s : State) (n : Nat) (x : Encoder) : (s.setEnc n x).letterId = s.letterId := rfl
@[simp] theorem State.setEnc_readTags (s : State) (n : Nat) (x : Encoder) : (s.setEnc n x).readTags = s.readTags := rfl
@[simp] theorem State.setEnc_storeWait (s : State) (n : Nat) (x : Encoder) : (s.setEnc n x).storeWait = s.storeWait := rfl
@[simp] theorem State.setEnc_readWait (s : State) (n : Nat) (x : Encoder) : (s.setEnc n x).readWait = s.readWait := rfl
@[simp] theorem State.setEnc_stepTime (s : State) (n : Nat) (x : Encoder) : (s.setEnc n x).stepTime = s.stepTime := rfl
@[simp] theorem State.setEnc_tilePower (s : State) (n : Nat) (x : Encoder) : (s.setEnc n x).tilePower = s.tilePower := rfl
@[simp] theorem State.setEnc_sweepNext (s : State) (n : Nat) (x : Encoder) : (s.setEnc n x).sweepNext = s.sweepNext := rfl
@[simp] theorem State.setEnc_logSeq (s : State) (n : Nat) (x : Encoder) : (s.setEnc n x).logSeq = s.logSeq := rfl
@[simp] theorem State.setEnc_powerGood (s : State) (n : Nat) (x : Encoder) : (s.setEnc n x).powerGood = s.powerGood := rfl
@[simp] theorem State.setEnc_boot (s : State) (n : Nat) (x : Encoder) : (s.setEnc n x).boot = s.boot := rfl
@[simp] theorem State.setEnc_tap (s : State) (n : Nat) (x : Encoder) : (s.setEnc n x).tap = s.tap := rfl
@[simp] theorem State.setEnc_master (s : State) (n : Nat) (x : Encoder) : (s.setEnc n x).master = s.master := rfl
@[simp] theorem State.setEnc_poreset (s : State) (n : Nat) (x : Encoder) : (s.setEnc n x).poreset = s.poreset := rfl
@[simp] theorem State.setEnc_plls (s : State) (n : Nat) (x : Encoder) : (s.setEnc n x).plls = s.plls := rfl
@[simp] theorem State.setEnc_gmEpoch (s : State) (n : Nat) (x : Encoder) : (s.setEnc n x).gmEpoch = s.gmEpoch := rfl
@[simp] theorem State.setEnc_resp (s : State) (n : Nat) (x : Encoder) : (s.setEnc n x).resp = s.resp := rfl
@[simp] theorem State.setEnc_fresh (s : State) (n : Nat) (x : Encoder) : (s.setEnc n x).fresh = s.fresh := rfl

/-! ### State.setPower -/

@[simp] theorem State.setPower_pending (s : State) (n : Nat) (x : TilePower) : (s.setPower n x).pending = s.pending := rfl
@[simp] theorem State.setPower_regs (s : State) (n : Nat) (x : TilePower) : (s.setPower n x).regs = s.regs := rfl
@[simp] theorem State.setPower_shadow (s : State) (n : Nat) (x : TilePower) : (s.setPower n x).shadow = s.shadow := rfl
@[simp] theorem State.setPower_mem (s : State) (n : Nat) (x : TilePower) : (s.setPower n x).mem = s.mem := rfl
@[simp] theorem State.setPower_marks (s : State) (n : Nat) (x : TilePower) : (s.setPower n x).marks = s.marks := rfl
@[simp] theorem State.setPower_writebacks (s : State) (n : Nat) (x : TilePower) : (s.setPower n x).writebacks = s.writebacks := rfl
@[simp] theorem State.setPower_marches (s : State) (n : Nat) (x : TilePower) : (s.setPower n x).marches = s.marches := rfl
@[simp] theorem State.setPower_scrubs (s : State) (n : Nat) (x : TilePower) : (s.setPower n x).scrubs = s.scrubs := rfl
@[simp] theorem State.setPower_scrubbed (s : State) (n : Nat) (x : TilePower) : (s.setPower n x).scrubbed = s.scrubbed := rfl
@[simp] theorem State.setPower_engines (s : State) (n : Nat) (x : TilePower) : (s.setPower n x).engines = s.engines := rfl
@[simp] theorem State.setPower_ready (s : State) (n : Nat) (x : TilePower) : (s.setPower n x).ready = s.ready := rfl
@[simp] theorem State.setPower_reports (s : State) (n : Nat) (x : TilePower) : (s.setPower n x).reports = s.reports := rfl
@[simp] theorem State.setPower_fbclk (s : State) (n : Nat) (x : TilePower) : (s.setPower n x).fbclk = s.fbclk := rfl
@[simp] theorem State.setPower_hwFenced (s : State) (n : Nat) (x : TilePower) : (s.setPower n x).hwFenced = s.hwFenced := rfl
@[simp] theorem State.setPower_health (s : State) (n : Nat) (x : TilePower) : (s.setPower n x).health = s.health := rfl
@[simp] theorem State.setPower_rings (s : State) (n : Nat) (x : TilePower) : (s.setPower n x).rings = s.rings := rfl
@[simp] theorem State.setPower_wakes (s : State) (n : Nat) (x : TilePower) : (s.setPower n x).wakes = s.wakes := rfl
@[simp] theorem State.setPower_encoders (s : State) (n : Nat) (x : TilePower) : (s.setPower n x).encoders = s.encoders := rfl
@[simp] theorem State.setPower_bus (s : State) (n : Nat) (x : TilePower) : (s.setPower n x).bus = s.bus := rfl
@[simp] theorem State.setPower_rebased (s : State) (n : Nat) (x : TilePower) : (s.setPower n x).rebased = s.rebased := rfl
@[simp] theorem State.setPower_clock (s : State) (n : Nat) (x : TilePower) : (s.setPower n x).clock = s.clock := rfl
@[simp] theorem State.setPower_ucStores (s : State) (n : Nat) (x : TilePower) : (s.setPower n x).ucStores = s.ucStores := rfl
@[simp] theorem State.setPower_ucCmds (s : State) (n : Nat) (x : TilePower) : (s.setPower n x).ucCmds = s.ucCmds := rfl
@[simp] theorem State.setPower_figures (s : State) (n : Nat) (x : TilePower) : (s.setPower n x).figures = s.figures := rfl
@[simp] theorem State.setPower_reels (s : State) (n : Nat) (x : TilePower) : (s.setPower n x).reels = s.reels := rfl
@[simp] theorem State.setPower_mmWait (s : State) (n : Nat) (x : TilePower) : (s.setPower n x).mmWait = s.mmWait := rfl
@[simp] theorem State.setPower_mmOut (s : State) (n : Nat) (x : TilePower) : (s.setPower n x).mmOut = s.mmOut := rfl
@[simp] theorem State.setPower_mmBeats (s : State) (n : Nat) (x : TilePower) : (s.setPower n x).mmBeats = s.mmBeats := rfl
@[simp] theorem State.setPower_host (s : State) (n : Nat) (x : TilePower) : (s.setPower n x).host = s.host := rfl
@[simp] theorem State.setPower_hostId (s : State) (n : Nat) (x : TilePower) : (s.setPower n x).hostId = s.hostId := rfl
@[simp] theorem State.setPower_hostNow (s : State) (n : Nat) (x : TilePower) : (s.setPower n x).hostNow = s.hostNow := rfl
@[simp] theorem State.setPower_relays (s : State) (n : Nat) (x : TilePower) : (s.setPower n x).relays = s.relays := rfl
@[simp] theorem State.setPower_inbox (s : State) (n : Nat) (x : TilePower) : (s.setPower n x).inbox = s.inbox := rfl
@[simp] theorem State.setPower_letterId (s : State) (n : Nat) (x : TilePower) : (s.setPower n x).letterId = s.letterId := rfl
@[simp] theorem State.setPower_readTags (s : State) (n : Nat) (x : TilePower) : (s.setPower n x).readTags = s.readTags := rfl
@[simp] theorem State.setPower_storeWait (s : State) (n : Nat) (x : TilePower) : (s.setPower n x).storeWait = s.storeWait := rfl
@[simp] theorem State.setPower_readWait (s : State) (n : Nat) (x : TilePower) : (s.setPower n x).readWait = s.readWait := rfl
@[simp] theorem State.setPower_stepTime (s : State) (n : Nat) (x : TilePower) : (s.setPower n x).stepTime = s.stepTime := rfl
@[simp] theorem State.setPower_tilePower (s : State) (n : Nat) (x : TilePower) : (s.setPower n x).tilePower = mset s.tilePower n x := rfl
@[simp] theorem State.setPower_sweepNext (s : State) (n : Nat) (x : TilePower) : (s.setPower n x).sweepNext = s.sweepNext := rfl
@[simp] theorem State.setPower_logSeq (s : State) (n : Nat) (x : TilePower) : (s.setPower n x).logSeq = s.logSeq := rfl
@[simp] theorem State.setPower_powerGood (s : State) (n : Nat) (x : TilePower) : (s.setPower n x).powerGood = s.powerGood := rfl
@[simp] theorem State.setPower_boot (s : State) (n : Nat) (x : TilePower) : (s.setPower n x).boot = s.boot := rfl
@[simp] theorem State.setPower_tap (s : State) (n : Nat) (x : TilePower) : (s.setPower n x).tap = s.tap := rfl
@[simp] theorem State.setPower_master (s : State) (n : Nat) (x : TilePower) : (s.setPower n x).master = s.master := rfl
@[simp] theorem State.setPower_poreset (s : State) (n : Nat) (x : TilePower) : (s.setPower n x).poreset = s.poreset := rfl
@[simp] theorem State.setPower_plls (s : State) (n : Nat) (x : TilePower) : (s.setPower n x).plls = s.plls := rfl
@[simp] theorem State.setPower_gmEpoch (s : State) (n : Nat) (x : TilePower) : (s.setPower n x).gmEpoch = s.gmEpoch := rfl
@[simp] theorem State.setPower_resp (s : State) (n : Nat) (x : TilePower) : (s.setPower n x).resp = s.resp := rfl
@[simp] theorem State.setPower_fresh (s : State) (n : Nat) (x : TilePower) : (s.setPower n x).fresh = s.fresh := rfl

/-! ### State.setFigure -/

@[simp] theorem State.setFigure_pending (s : State) (n : Nat) (x : FigUnit) : (s.setFigure n x).pending = s.pending := rfl
@[simp] theorem State.setFigure_regs (s : State) (n : Nat) (x : FigUnit) : (s.setFigure n x).regs = s.regs := rfl
@[simp] theorem State.setFigure_shadow (s : State) (n : Nat) (x : FigUnit) : (s.setFigure n x).shadow = s.shadow := rfl
@[simp] theorem State.setFigure_mem (s : State) (n : Nat) (x : FigUnit) : (s.setFigure n x).mem = s.mem := rfl
@[simp] theorem State.setFigure_marks (s : State) (n : Nat) (x : FigUnit) : (s.setFigure n x).marks = s.marks := rfl
@[simp] theorem State.setFigure_writebacks (s : State) (n : Nat) (x : FigUnit) : (s.setFigure n x).writebacks = s.writebacks := rfl
@[simp] theorem State.setFigure_marches (s : State) (n : Nat) (x : FigUnit) : (s.setFigure n x).marches = s.marches := rfl
@[simp] theorem State.setFigure_scrubs (s : State) (n : Nat) (x : FigUnit) : (s.setFigure n x).scrubs = s.scrubs := rfl
@[simp] theorem State.setFigure_scrubbed (s : State) (n : Nat) (x : FigUnit) : (s.setFigure n x).scrubbed = s.scrubbed := rfl
@[simp] theorem State.setFigure_engines (s : State) (n : Nat) (x : FigUnit) : (s.setFigure n x).engines = s.engines := rfl
@[simp] theorem State.setFigure_ready (s : State) (n : Nat) (x : FigUnit) : (s.setFigure n x).ready = s.ready := rfl
@[simp] theorem State.setFigure_reports (s : State) (n : Nat) (x : FigUnit) : (s.setFigure n x).reports = s.reports := rfl
@[simp] theorem State.setFigure_fbclk (s : State) (n : Nat) (x : FigUnit) : (s.setFigure n x).fbclk = s.fbclk := rfl
@[simp] theorem State.setFigure_hwFenced (s : State) (n : Nat) (x : FigUnit) : (s.setFigure n x).hwFenced = s.hwFenced := rfl
@[simp] theorem State.setFigure_health (s : State) (n : Nat) (x : FigUnit) : (s.setFigure n x).health = s.health := rfl
@[simp] theorem State.setFigure_rings (s : State) (n : Nat) (x : FigUnit) : (s.setFigure n x).rings = s.rings := rfl
@[simp] theorem State.setFigure_wakes (s : State) (n : Nat) (x : FigUnit) : (s.setFigure n x).wakes = s.wakes := rfl
@[simp] theorem State.setFigure_encoders (s : State) (n : Nat) (x : FigUnit) : (s.setFigure n x).encoders = s.encoders := rfl
@[simp] theorem State.setFigure_bus (s : State) (n : Nat) (x : FigUnit) : (s.setFigure n x).bus = s.bus := rfl
@[simp] theorem State.setFigure_rebased (s : State) (n : Nat) (x : FigUnit) : (s.setFigure n x).rebased = s.rebased := rfl
@[simp] theorem State.setFigure_clock (s : State) (n : Nat) (x : FigUnit) : (s.setFigure n x).clock = s.clock := rfl
@[simp] theorem State.setFigure_ucStores (s : State) (n : Nat) (x : FigUnit) : (s.setFigure n x).ucStores = s.ucStores := rfl
@[simp] theorem State.setFigure_ucCmds (s : State) (n : Nat) (x : FigUnit) : (s.setFigure n x).ucCmds = s.ucCmds := rfl
@[simp] theorem State.setFigure_figures (s : State) (n : Nat) (x : FigUnit) : (s.setFigure n x).figures = mset s.figures n x := rfl
@[simp] theorem State.setFigure_reels (s : State) (n : Nat) (x : FigUnit) : (s.setFigure n x).reels = s.reels := rfl
@[simp] theorem State.setFigure_mmWait (s : State) (n : Nat) (x : FigUnit) : (s.setFigure n x).mmWait = s.mmWait := rfl
@[simp] theorem State.setFigure_mmOut (s : State) (n : Nat) (x : FigUnit) : (s.setFigure n x).mmOut = s.mmOut := rfl
@[simp] theorem State.setFigure_mmBeats (s : State) (n : Nat) (x : FigUnit) : (s.setFigure n x).mmBeats = s.mmBeats := rfl
@[simp] theorem State.setFigure_host (s : State) (n : Nat) (x : FigUnit) : (s.setFigure n x).host = s.host := rfl
@[simp] theorem State.setFigure_hostId (s : State) (n : Nat) (x : FigUnit) : (s.setFigure n x).hostId = s.hostId := rfl
@[simp] theorem State.setFigure_hostNow (s : State) (n : Nat) (x : FigUnit) : (s.setFigure n x).hostNow = s.hostNow := rfl
@[simp] theorem State.setFigure_relays (s : State) (n : Nat) (x : FigUnit) : (s.setFigure n x).relays = s.relays := rfl
@[simp] theorem State.setFigure_inbox (s : State) (n : Nat) (x : FigUnit) : (s.setFigure n x).inbox = s.inbox := rfl
@[simp] theorem State.setFigure_letterId (s : State) (n : Nat) (x : FigUnit) : (s.setFigure n x).letterId = s.letterId := rfl
@[simp] theorem State.setFigure_readTags (s : State) (n : Nat) (x : FigUnit) : (s.setFigure n x).readTags = s.readTags := rfl
@[simp] theorem State.setFigure_storeWait (s : State) (n : Nat) (x : FigUnit) : (s.setFigure n x).storeWait = s.storeWait := rfl
@[simp] theorem State.setFigure_readWait (s : State) (n : Nat) (x : FigUnit) : (s.setFigure n x).readWait = s.readWait := rfl
@[simp] theorem State.setFigure_stepTime (s : State) (n : Nat) (x : FigUnit) : (s.setFigure n x).stepTime = s.stepTime := rfl
@[simp] theorem State.setFigure_tilePower (s : State) (n : Nat) (x : FigUnit) : (s.setFigure n x).tilePower = s.tilePower := rfl
@[simp] theorem State.setFigure_sweepNext (s : State) (n : Nat) (x : FigUnit) : (s.setFigure n x).sweepNext = s.sweepNext := rfl
@[simp] theorem State.setFigure_logSeq (s : State) (n : Nat) (x : FigUnit) : (s.setFigure n x).logSeq = s.logSeq := rfl
@[simp] theorem State.setFigure_powerGood (s : State) (n : Nat) (x : FigUnit) : (s.setFigure n x).powerGood = s.powerGood := rfl
@[simp] theorem State.setFigure_boot (s : State) (n : Nat) (x : FigUnit) : (s.setFigure n x).boot = s.boot := rfl
@[simp] theorem State.setFigure_tap (s : State) (n : Nat) (x : FigUnit) : (s.setFigure n x).tap = s.tap := rfl
@[simp] theorem State.setFigure_master (s : State) (n : Nat) (x : FigUnit) : (s.setFigure n x).master = s.master := rfl
@[simp] theorem State.setFigure_poreset (s : State) (n : Nat) (x : FigUnit) : (s.setFigure n x).poreset = s.poreset := rfl
@[simp] theorem State.setFigure_plls (s : State) (n : Nat) (x : FigUnit) : (s.setFigure n x).plls = s.plls := rfl
@[simp] theorem State.setFigure_gmEpoch (s : State) (n : Nat) (x : FigUnit) : (s.setFigure n x).gmEpoch = s.gmEpoch := rfl
@[simp] theorem State.setFigure_resp (s : State) (n : Nat) (x : FigUnit) : (s.setFigure n x).resp = s.resp := rfl
@[simp] theorem State.setFigure_fresh (s : State) (n : Nat) (x : FigUnit) : (s.setFigure n x).fresh = s.fresh := rfl

/-! ### State.setReel -/

@[simp] theorem State.setReel_pending (s : State) (n : Nat) (x : ReelUnit) : (s.setReel n x).pending = s.pending := rfl
@[simp] theorem State.setReel_regs (s : State) (n : Nat) (x : ReelUnit) : (s.setReel n x).regs = s.regs := rfl
@[simp] theorem State.setReel_shadow (s : State) (n : Nat) (x : ReelUnit) : (s.setReel n x).shadow = s.shadow := rfl
@[simp] theorem State.setReel_mem (s : State) (n : Nat) (x : ReelUnit) : (s.setReel n x).mem = s.mem := rfl
@[simp] theorem State.setReel_marks (s : State) (n : Nat) (x : ReelUnit) : (s.setReel n x).marks = s.marks := rfl
@[simp] theorem State.setReel_writebacks (s : State) (n : Nat) (x : ReelUnit) : (s.setReel n x).writebacks = s.writebacks := rfl
@[simp] theorem State.setReel_marches (s : State) (n : Nat) (x : ReelUnit) : (s.setReel n x).marches = s.marches := rfl
@[simp] theorem State.setReel_scrubs (s : State) (n : Nat) (x : ReelUnit) : (s.setReel n x).scrubs = s.scrubs := rfl
@[simp] theorem State.setReel_scrubbed (s : State) (n : Nat) (x : ReelUnit) : (s.setReel n x).scrubbed = s.scrubbed := rfl
@[simp] theorem State.setReel_engines (s : State) (n : Nat) (x : ReelUnit) : (s.setReel n x).engines = s.engines := rfl
@[simp] theorem State.setReel_ready (s : State) (n : Nat) (x : ReelUnit) : (s.setReel n x).ready = s.ready := rfl
@[simp] theorem State.setReel_reports (s : State) (n : Nat) (x : ReelUnit) : (s.setReel n x).reports = s.reports := rfl
@[simp] theorem State.setReel_fbclk (s : State) (n : Nat) (x : ReelUnit) : (s.setReel n x).fbclk = s.fbclk := rfl
@[simp] theorem State.setReel_hwFenced (s : State) (n : Nat) (x : ReelUnit) : (s.setReel n x).hwFenced = s.hwFenced := rfl
@[simp] theorem State.setReel_health (s : State) (n : Nat) (x : ReelUnit) : (s.setReel n x).health = s.health := rfl
@[simp] theorem State.setReel_rings (s : State) (n : Nat) (x : ReelUnit) : (s.setReel n x).rings = s.rings := rfl
@[simp] theorem State.setReel_wakes (s : State) (n : Nat) (x : ReelUnit) : (s.setReel n x).wakes = s.wakes := rfl
@[simp] theorem State.setReel_encoders (s : State) (n : Nat) (x : ReelUnit) : (s.setReel n x).encoders = s.encoders := rfl
@[simp] theorem State.setReel_bus (s : State) (n : Nat) (x : ReelUnit) : (s.setReel n x).bus = s.bus := rfl
@[simp] theorem State.setReel_rebased (s : State) (n : Nat) (x : ReelUnit) : (s.setReel n x).rebased = s.rebased := rfl
@[simp] theorem State.setReel_clock (s : State) (n : Nat) (x : ReelUnit) : (s.setReel n x).clock = s.clock := rfl
@[simp] theorem State.setReel_ucStores (s : State) (n : Nat) (x : ReelUnit) : (s.setReel n x).ucStores = s.ucStores := rfl
@[simp] theorem State.setReel_ucCmds (s : State) (n : Nat) (x : ReelUnit) : (s.setReel n x).ucCmds = s.ucCmds := rfl
@[simp] theorem State.setReel_figures (s : State) (n : Nat) (x : ReelUnit) : (s.setReel n x).figures = s.figures := rfl
@[simp] theorem State.setReel_reels (s : State) (n : Nat) (x : ReelUnit) : (s.setReel n x).reels = mset s.reels n x := rfl
@[simp] theorem State.setReel_mmWait (s : State) (n : Nat) (x : ReelUnit) : (s.setReel n x).mmWait = s.mmWait := rfl
@[simp] theorem State.setReel_mmOut (s : State) (n : Nat) (x : ReelUnit) : (s.setReel n x).mmOut = s.mmOut := rfl
@[simp] theorem State.setReel_mmBeats (s : State) (n : Nat) (x : ReelUnit) : (s.setReel n x).mmBeats = s.mmBeats := rfl
@[simp] theorem State.setReel_host (s : State) (n : Nat) (x : ReelUnit) : (s.setReel n x).host = s.host := rfl
@[simp] theorem State.setReel_hostId (s : State) (n : Nat) (x : ReelUnit) : (s.setReel n x).hostId = s.hostId := rfl
@[simp] theorem State.setReel_hostNow (s : State) (n : Nat) (x : ReelUnit) : (s.setReel n x).hostNow = s.hostNow := rfl
@[simp] theorem State.setReel_relays (s : State) (n : Nat) (x : ReelUnit) : (s.setReel n x).relays = s.relays := rfl
@[simp] theorem State.setReel_inbox (s : State) (n : Nat) (x : ReelUnit) : (s.setReel n x).inbox = s.inbox := rfl
@[simp] theorem State.setReel_letterId (s : State) (n : Nat) (x : ReelUnit) : (s.setReel n x).letterId = s.letterId := rfl
@[simp] theorem State.setReel_readTags (s : State) (n : Nat) (x : ReelUnit) : (s.setReel n x).readTags = s.readTags := rfl
@[simp] theorem State.setReel_storeWait (s : State) (n : Nat) (x : ReelUnit) : (s.setReel n x).storeWait = s.storeWait := rfl
@[simp] theorem State.setReel_readWait (s : State) (n : Nat) (x : ReelUnit) : (s.setReel n x).readWait = s.readWait := rfl
@[simp] theorem State.setReel_stepTime (s : State) (n : Nat) (x : ReelUnit) : (s.setReel n x).stepTime = s.stepTime := rfl
@[simp] theorem State.setReel_tilePower (s : State) (n : Nat) (x : ReelUnit) : (s.setReel n x).tilePower = s.tilePower := rfl
@[simp] theorem State.setReel_sweepNext (s : State) (n : Nat) (x : ReelUnit) : (s.setReel n x).sweepNext = s.sweepNext := rfl
@[simp] theorem State.setReel_logSeq (s : State) (n : Nat) (x : ReelUnit) : (s.setReel n x).logSeq = s.logSeq := rfl
@[simp] theorem State.setReel_powerGood (s : State) (n : Nat) (x : ReelUnit) : (s.setReel n x).powerGood = s.powerGood := rfl
@[simp] theorem State.setReel_boot (s : State) (n : Nat) (x : ReelUnit) : (s.setReel n x).boot = s.boot := rfl
@[simp] theorem State.setReel_tap (s : State) (n : Nat) (x : ReelUnit) : (s.setReel n x).tap = s.tap := rfl
@[simp] theorem State.setReel_master (s : State) (n : Nat) (x : ReelUnit) : (s.setReel n x).master = s.master := rfl
@[simp] theorem State.setReel_poreset (s : State) (n : Nat) (x : ReelUnit) : (s.setReel n x).poreset = s.poreset := rfl
@[simp] theorem State.setReel_plls (s : State) (n : Nat) (x : ReelUnit) : (s.setReel n x).plls = s.plls := rfl
@[simp] theorem State.setReel_gmEpoch (s : State) (n : Nat) (x : ReelUnit) : (s.setReel n x).gmEpoch = s.gmEpoch := rfl
@[simp] theorem State.setReel_resp (s : State) (n : Nat) (x : ReelUnit) : (s.setReel n x).resp = s.resp := rfl
@[simp] theorem State.setReel_fresh (s : State) (n : Nat) (x : ReelUnit) : (s.setReel n x).fresh = s.fresh := rfl

/-! ### State.report -/

@[simp] theorem State.report_pending (s : State) (c n : Nat) (d : Word) : (s.report c n d).pending = s.pending := rfl
@[simp] theorem State.report_regs (s : State) (c n : Nat) (d : Word) : (s.report c n d).regs = s.regs := rfl
@[simp] theorem State.report_shadow (s : State) (c n : Nat) (d : Word) : (s.report c n d).shadow = s.shadow := rfl
@[simp] theorem State.report_mem (s : State) (c n : Nat) (d : Word) : (s.report c n d).mem = s.mem := rfl
@[simp] theorem State.report_marks (s : State) (c n : Nat) (d : Word) : (s.report c n d).marks = s.marks := rfl
@[simp] theorem State.report_writebacks (s : State) (c n : Nat) (d : Word) : (s.report c n d).writebacks = s.writebacks := rfl
@[simp] theorem State.report_marches (s : State) (c n : Nat) (d : Word) : (s.report c n d).marches = s.marches := rfl
@[simp] theorem State.report_scrubs (s : State) (c n : Nat) (d : Word) : (s.report c n d).scrubs = s.scrubs := rfl
@[simp] theorem State.report_scrubbed (s : State) (c n : Nat) (d : Word) : (s.report c n d).scrubbed = s.scrubbed := rfl
@[simp] theorem State.report_engines (s : State) (c n : Nat) (d : Word) : (s.report c n d).engines = s.engines := rfl
@[simp] theorem State.report_ready (s : State) (c n : Nat) (d : Word) : (s.report c n d).ready = s.ready := rfl
@[simp] theorem State.report_reports (s : State) (c n : Nat) (d : Word) : (s.report c n d).reports = s.reports ++ [{ cls := c, src := n, det := d, cyc := s.fbclk }] := rfl
@[simp] theorem State.report_fbclk (s : State) (c n : Nat) (d : Word) : (s.report c n d).fbclk = s.fbclk := rfl
@[simp] theorem State.report_hwFenced (s : State) (c n : Nat) (d : Word) : (s.report c n d).hwFenced = s.hwFenced := rfl
@[simp] theorem State.report_health (s : State) (c n : Nat) (d : Word) : (s.report c n d).health = s.health := rfl
@[simp] theorem State.report_rings (s : State) (c n : Nat) (d : Word) : (s.report c n d).rings = s.rings := rfl
@[simp] theorem State.report_wakes (s : State) (c n : Nat) (d : Word) : (s.report c n d).wakes = s.wakes := rfl
@[simp] theorem State.report_encoders (s : State) (c n : Nat) (d : Word) : (s.report c n d).encoders = s.encoders := rfl
@[simp] theorem State.report_bus (s : State) (c n : Nat) (d : Word) : (s.report c n d).bus = s.bus := rfl
@[simp] theorem State.report_rebased (s : State) (c n : Nat) (d : Word) : (s.report c n d).rebased = s.rebased := rfl
@[simp] theorem State.report_clock (s : State) (c n : Nat) (d : Word) : (s.report c n d).clock = s.clock := rfl
@[simp] theorem State.report_ucStores (s : State) (c n : Nat) (d : Word) : (s.report c n d).ucStores = s.ucStores := rfl
@[simp] theorem State.report_ucCmds (s : State) (c n : Nat) (d : Word) : (s.report c n d).ucCmds = s.ucCmds := rfl
@[simp] theorem State.report_figures (s : State) (c n : Nat) (d : Word) : (s.report c n d).figures = s.figures := rfl
@[simp] theorem State.report_reels (s : State) (c n : Nat) (d : Word) : (s.report c n d).reels = s.reels := rfl
@[simp] theorem State.report_mmWait (s : State) (c n : Nat) (d : Word) : (s.report c n d).mmWait = s.mmWait := rfl
@[simp] theorem State.report_mmOut (s : State) (c n : Nat) (d : Word) : (s.report c n d).mmOut = s.mmOut := rfl
@[simp] theorem State.report_mmBeats (s : State) (c n : Nat) (d : Word) : (s.report c n d).mmBeats = s.mmBeats := rfl
@[simp] theorem State.report_host (s : State) (c n : Nat) (d : Word) : (s.report c n d).host = s.host := rfl
@[simp] theorem State.report_hostId (s : State) (c n : Nat) (d : Word) : (s.report c n d).hostId = s.hostId := rfl
@[simp] theorem State.report_hostNow (s : State) (c n : Nat) (d : Word) : (s.report c n d).hostNow = s.hostNow := rfl
@[simp] theorem State.report_relays (s : State) (c n : Nat) (d : Word) : (s.report c n d).relays = s.relays := rfl
@[simp] theorem State.report_inbox (s : State) (c n : Nat) (d : Word) : (s.report c n d).inbox = s.inbox := rfl
@[simp] theorem State.report_letterId (s : State) (c n : Nat) (d : Word) : (s.report c n d).letterId = s.letterId := rfl
@[simp] theorem State.report_readTags (s : State) (c n : Nat) (d : Word) : (s.report c n d).readTags = s.readTags := rfl
@[simp] theorem State.report_storeWait (s : State) (c n : Nat) (d : Word) : (s.report c n d).storeWait = s.storeWait := rfl
@[simp] theorem State.report_readWait (s : State) (c n : Nat) (d : Word) : (s.report c n d).readWait = s.readWait := rfl
@[simp] theorem State.report_stepTime (s : State) (c n : Nat) (d : Word) : (s.report c n d).stepTime = s.stepTime := rfl
@[simp] theorem State.report_tilePower (s : State) (c n : Nat) (d : Word) : (s.report c n d).tilePower = s.tilePower := rfl
@[simp] theorem State.report_sweepNext (s : State) (c n : Nat) (d : Word) : (s.report c n d).sweepNext = s.sweepNext := rfl
@[simp] theorem State.report_logSeq (s : State) (c n : Nat) (d : Word) : (s.report c n d).logSeq = s.logSeq := rfl
@[simp] theorem State.report_powerGood (s : State) (c n : Nat) (d : Word) : (s.report c n d).powerGood = s.powerGood := rfl
@[simp] theorem State.report_boot (s : State) (c n : Nat) (d : Word) : (s.report c n d).boot = s.boot := rfl
@[simp] theorem State.report_tap (s : State) (c n : Nat) (d : Word) : (s.report c n d).tap = s.tap := rfl
@[simp] theorem State.report_master (s : State) (c n : Nat) (d : Word) : (s.report c n d).master = s.master := rfl
@[simp] theorem State.report_poreset (s : State) (c n : Nat) (d : Word) : (s.report c n d).poreset = s.poreset := rfl
@[simp] theorem State.report_plls (s : State) (c n : Nat) (d : Word) : (s.report c n d).plls = s.plls := rfl
@[simp] theorem State.report_gmEpoch (s : State) (c n : Nat) (d : Word) : (s.report c n d).gmEpoch = s.gmEpoch := rfl
@[simp] theorem State.report_resp (s : State) (c n : Nat) (d : Word) : (s.report c n d).resp = s.resp := rfl
@[simp] theorem State.report_fresh (s : State) (c n : Nat) (d : Word) : (s.report c n d).fresh = s.fresh := rfl

/-! ### State.ringHw -/

@[simp] theorem State.ringHw_pending (s : State) (n : Nat) : (s.ringHw n).pending = s.pending := rfl
@[simp] theorem State.ringHw_regs (s : State) (n : Nat) : (s.ringHw n).regs = s.regs := rfl
@[simp] theorem State.ringHw_shadow (s : State) (n : Nat) : (s.ringHw n).shadow = s.shadow := rfl
@[simp] theorem State.ringHw_mem (s : State) (n : Nat) : (s.ringHw n).mem = s.mem := rfl
@[simp] theorem State.ringHw_marks (s : State) (n : Nat) : (s.ringHw n).marks = s.marks := rfl
@[simp] theorem State.ringHw_writebacks (s : State) (n : Nat) : (s.ringHw n).writebacks = s.writebacks := rfl
@[simp] theorem State.ringHw_marches (s : State) (n : Nat) : (s.ringHw n).marches = s.marches := rfl
@[simp] theorem State.ringHw_scrubs (s : State) (n : Nat) : (s.ringHw n).scrubs = s.scrubs := rfl
@[simp] theorem State.ringHw_scrubbed (s : State) (n : Nat) : (s.ringHw n).scrubbed = s.scrubbed := rfl
@[simp] theorem State.ringHw_engines (s : State) (n : Nat) : (s.ringHw n).engines = s.engines := rfl
@[simp] theorem State.ringHw_ready (s : State) (n : Nat) : (s.ringHw n).ready = s.ready := rfl
@[simp] theorem State.ringHw_reports (s : State) (n : Nat) : (s.ringHw n).reports = s.reports := rfl
@[simp] theorem State.ringHw_fbclk (s : State) (n : Nat) : (s.ringHw n).fbclk = s.fbclk := rfl
@[simp] theorem State.ringHw_hwFenced (s : State) (n : Nat) : (s.ringHw n).hwFenced = s.hwFenced := rfl
@[simp] theorem State.ringHw_health (s : State) (n : Nat) : (s.ringHw n).health = s.health := rfl
@[simp] theorem State.ringHw_rings (s : State) (n : Nat) : (s.ringHw n).rings = s.rings ++ [⟨n, .hw, none⟩] := rfl
@[simp] theorem State.ringHw_wakes (s : State) (n : Nat) : (s.ringHw n).wakes = s.wakes := rfl
@[simp] theorem State.ringHw_encoders (s : State) (n : Nat) : (s.ringHw n).encoders = s.encoders := rfl
@[simp] theorem State.ringHw_bus (s : State) (n : Nat) : (s.ringHw n).bus = s.bus := rfl
@[simp] theorem State.ringHw_rebased (s : State) (n : Nat) : (s.ringHw n).rebased = s.rebased := rfl
@[simp] theorem State.ringHw_clock (s : State) (n : Nat) : (s.ringHw n).clock = s.clock := rfl
@[simp] theorem State.ringHw_ucStores (s : State) (n : Nat) : (s.ringHw n).ucStores = s.ucStores := rfl
@[simp] theorem State.ringHw_ucCmds (s : State) (n : Nat) : (s.ringHw n).ucCmds = s.ucCmds := rfl
@[simp] theorem State.ringHw_figures (s : State) (n : Nat) : (s.ringHw n).figures = s.figures := rfl
@[simp] theorem State.ringHw_reels (s : State) (n : Nat) : (s.ringHw n).reels = s.reels := rfl
@[simp] theorem State.ringHw_mmWait (s : State) (n : Nat) : (s.ringHw n).mmWait = s.mmWait := rfl
@[simp] theorem State.ringHw_mmOut (s : State) (n : Nat) : (s.ringHw n).mmOut = s.mmOut := rfl
@[simp] theorem State.ringHw_mmBeats (s : State) (n : Nat) : (s.ringHw n).mmBeats = s.mmBeats := rfl
@[simp] theorem State.ringHw_host (s : State) (n : Nat) : (s.ringHw n).host = s.host := rfl
@[simp] theorem State.ringHw_hostId (s : State) (n : Nat) : (s.ringHw n).hostId = s.hostId := rfl
@[simp] theorem State.ringHw_hostNow (s : State) (n : Nat) : (s.ringHw n).hostNow = s.hostNow := rfl
@[simp] theorem State.ringHw_relays (s : State) (n : Nat) : (s.ringHw n).relays = s.relays := rfl
@[simp] theorem State.ringHw_inbox (s : State) (n : Nat) : (s.ringHw n).inbox = s.inbox := rfl
@[simp] theorem State.ringHw_letterId (s : State) (n : Nat) : (s.ringHw n).letterId = s.letterId := rfl
@[simp] theorem State.ringHw_readTags (s : State) (n : Nat) : (s.ringHw n).readTags = s.readTags := rfl
@[simp] theorem State.ringHw_storeWait (s : State) (n : Nat) : (s.ringHw n).storeWait = s.storeWait := rfl
@[simp] theorem State.ringHw_readWait (s : State) (n : Nat) : (s.ringHw n).readWait = s.readWait := rfl
@[simp] theorem State.ringHw_stepTime (s : State) (n : Nat) : (s.ringHw n).stepTime = s.stepTime := rfl
@[simp] theorem State.ringHw_tilePower (s : State) (n : Nat) : (s.ringHw n).tilePower = s.tilePower := rfl
@[simp] theorem State.ringHw_sweepNext (s : State) (n : Nat) : (s.ringHw n).sweepNext = s.sweepNext := rfl
@[simp] theorem State.ringHw_logSeq (s : State) (n : Nat) : (s.ringHw n).logSeq = s.logSeq := rfl
@[simp] theorem State.ringHw_powerGood (s : State) (n : Nat) : (s.ringHw n).powerGood = s.powerGood := rfl
@[simp] theorem State.ringHw_boot (s : State) (n : Nat) : (s.ringHw n).boot = s.boot := rfl
@[simp] theorem State.ringHw_tap (s : State) (n : Nat) : (s.ringHw n).tap = s.tap := rfl
@[simp] theorem State.ringHw_master (s : State) (n : Nat) : (s.ringHw n).master = s.master := rfl
@[simp] theorem State.ringHw_poreset (s : State) (n : Nat) : (s.ringHw n).poreset = s.poreset := rfl
@[simp] theorem State.ringHw_plls (s : State) (n : Nat) : (s.ringHw n).plls = s.plls := rfl
@[simp] theorem State.ringHw_gmEpoch (s : State) (n : Nat) : (s.ringHw n).gmEpoch = s.gmEpoch := rfl
@[simp] theorem State.ringHw_resp (s : State) (n : Nat) : (s.ringHw n).resp = s.resp := rfl
@[simp] theorem State.ringHw_fresh (s : State) (n : Nat) : (s.ringHw n).fresh = s.fresh := rfl

/-! ### State.answer -/

@[simp] theorem State.answer_pending (s : State) (w : Initiator) (c : Code) (d : DWord) : (s.answer w c d).pending = s.pending := rfl
@[simp] theorem State.answer_regs (s : State) (w : Initiator) (c : Code) (d : DWord) : (s.answer w c d).regs = s.regs := rfl
@[simp] theorem State.answer_shadow (s : State) (w : Initiator) (c : Code) (d : DWord) : (s.answer w c d).shadow = s.shadow := rfl
@[simp] theorem State.answer_mem (s : State) (w : Initiator) (c : Code) (d : DWord) : (s.answer w c d).mem = s.mem := rfl
@[simp] theorem State.answer_marks (s : State) (w : Initiator) (c : Code) (d : DWord) : (s.answer w c d).marks = s.marks := rfl
@[simp] theorem State.answer_writebacks (s : State) (w : Initiator) (c : Code) (d : DWord) : (s.answer w c d).writebacks = s.writebacks := rfl
@[simp] theorem State.answer_marches (s : State) (w : Initiator) (c : Code) (d : DWord) : (s.answer w c d).marches = s.marches := rfl
@[simp] theorem State.answer_scrubs (s : State) (w : Initiator) (c : Code) (d : DWord) : (s.answer w c d).scrubs = s.scrubs := rfl
@[simp] theorem State.answer_scrubbed (s : State) (w : Initiator) (c : Code) (d : DWord) : (s.answer w c d).scrubbed = s.scrubbed := rfl
@[simp] theorem State.answer_engines (s : State) (w : Initiator) (c : Code) (d : DWord) : (s.answer w c d).engines = s.engines := rfl
@[simp] theorem State.answer_ready (s : State) (w : Initiator) (c : Code) (d : DWord) : (s.answer w c d).ready = s.ready := rfl
@[simp] theorem State.answer_reports (s : State) (w : Initiator) (c : Code) (d : DWord) : (s.answer w c d).reports = s.reports := rfl
@[simp] theorem State.answer_fbclk (s : State) (w : Initiator) (c : Code) (d : DWord) : (s.answer w c d).fbclk = s.fbclk := rfl
@[simp] theorem State.answer_hwFenced (s : State) (w : Initiator) (c : Code) (d : DWord) : (s.answer w c d).hwFenced = s.hwFenced := rfl
@[simp] theorem State.answer_health (s : State) (w : Initiator) (c : Code) (d : DWord) : (s.answer w c d).health = s.health := rfl
@[simp] theorem State.answer_rings (s : State) (w : Initiator) (c : Code) (d : DWord) : (s.answer w c d).rings = s.rings := rfl
@[simp] theorem State.answer_wakes (s : State) (w : Initiator) (c : Code) (d : DWord) : (s.answer w c d).wakes = s.wakes := rfl
@[simp] theorem State.answer_encoders (s : State) (w : Initiator) (c : Code) (d : DWord) : (s.answer w c d).encoders = s.encoders := rfl
@[simp] theorem State.answer_bus (s : State) (w : Initiator) (c : Code) (d : DWord) : (s.answer w c d).bus = s.bus := rfl
@[simp] theorem State.answer_rebased (s : State) (w : Initiator) (c : Code) (d : DWord) : (s.answer w c d).rebased = s.rebased := rfl
@[simp] theorem State.answer_clock (s : State) (w : Initiator) (c : Code) (d : DWord) : (s.answer w c d).clock = s.clock := rfl
@[simp] theorem State.answer_ucStores (s : State) (w : Initiator) (c : Code) (d : DWord) : (s.answer w c d).ucStores = s.ucStores := rfl
@[simp] theorem State.answer_ucCmds (s : State) (w : Initiator) (c : Code) (d : DWord) : (s.answer w c d).ucCmds = s.ucCmds := rfl
@[simp] theorem State.answer_figures (s : State) (w : Initiator) (c : Code) (d : DWord) : (s.answer w c d).figures = s.figures := rfl
@[simp] theorem State.answer_reels (s : State) (w : Initiator) (c : Code) (d : DWord) : (s.answer w c d).reels = s.reels := rfl
@[simp] theorem State.answer_mmWait (s : State) (w : Initiator) (c : Code) (d : DWord) : (s.answer w c d).mmWait = s.mmWait := rfl
@[simp] theorem State.answer_mmOut (s : State) (w : Initiator) (c : Code) (d : DWord) : (s.answer w c d).mmOut = s.mmOut := rfl
@[simp] theorem State.answer_mmBeats (s : State) (w : Initiator) (c : Code) (d : DWord) : (s.answer w c d).mmBeats = s.mmBeats := rfl
@[simp] theorem State.answer_host (s : State) (w : Initiator) (c : Code) (d : DWord) : (s.answer w c d).host = s.host := rfl
@[simp] theorem State.answer_hostId (s : State) (w : Initiator) (c : Code) (d : DWord) : (s.answer w c d).hostId = s.hostId := rfl
@[simp] theorem State.answer_hostNow (s : State) (w : Initiator) (c : Code) (d : DWord) : (s.answer w c d).hostNow = s.hostNow := rfl
@[simp] theorem State.answer_relays (s : State) (w : Initiator) (c : Code) (d : DWord) : (s.answer w c d).relays = s.relays := rfl
@[simp] theorem State.answer_inbox (s : State) (w : Initiator) (c : Code) (d : DWord) : (s.answer w c d).inbox = s.inbox := rfl
@[simp] theorem State.answer_letterId (s : State) (w : Initiator) (c : Code) (d : DWord) : (s.answer w c d).letterId = s.letterId := rfl
@[simp] theorem State.answer_readTags (s : State) (w : Initiator) (c : Code) (d : DWord) : (s.answer w c d).readTags = s.readTags := rfl
@[simp] theorem State.answer_storeWait (s : State) (w : Initiator) (c : Code) (d : DWord) : (s.answer w c d).storeWait = s.storeWait := rfl
@[simp] theorem State.answer_readWait (s : State) (w : Initiator) (c : Code) (d : DWord) : (s.answer w c d).readWait = s.readWait := rfl
@[simp] theorem State.answer_stepTime (s : State) (w : Initiator) (c : Code) (d : DWord) : (s.answer w c d).stepTime = s.stepTime := rfl
@[simp] theorem State.answer_tilePower (s : State) (w : Initiator) (c : Code) (d : DWord) : (s.answer w c d).tilePower = s.tilePower := rfl
@[simp] theorem State.answer_sweepNext (s : State) (w : Initiator) (c : Code) (d : DWord) : (s.answer w c d).sweepNext = s.sweepNext := rfl
@[simp] theorem State.answer_logSeq (s : State) (w : Initiator) (c : Code) (d : DWord) : (s.answer w c d).logSeq = s.logSeq := rfl
@[simp] theorem State.answer_powerGood (s : State) (w : Initiator) (c : Code) (d : DWord) : (s.answer w c d).powerGood = s.powerGood := rfl
@[simp] theorem State.answer_boot (s : State) (w : Initiator) (c : Code) (d : DWord) : (s.answer w c d).boot = s.boot := rfl
@[simp] theorem State.answer_tap (s : State) (w : Initiator) (c : Code) (d : DWord) : (s.answer w c d).tap = s.tap := rfl
@[simp] theorem State.answer_master (s : State) (w : Initiator) (c : Code) (d : DWord) : (s.answer w c d).master = s.master := rfl
@[simp] theorem State.answer_poreset (s : State) (w : Initiator) (c : Code) (d : DWord) : (s.answer w c d).poreset = s.poreset := rfl
@[simp] theorem State.answer_plls (s : State) (w : Initiator) (c : Code) (d : DWord) : (s.answer w c d).plls = s.plls := rfl
@[simp] theorem State.answer_gmEpoch (s : State) (w : Initiator) (c : Code) (d : DWord) : (s.answer w c d).gmEpoch = s.gmEpoch := rfl
@[simp] theorem State.answer_resp (s : State) (w : Initiator) (c : Code) (d : DWord) : (s.answer w c d).resp = some { who := w, code := c, data := d } := rfl
@[simp] theorem State.answer_fresh (s : State) (w : Initiator) (c : Code) (d : DWord) : (s.answer w c d).fresh = s.fresh := rfl

/-! ### Reading after an update -/

@[simp] theorem State.eng_setEng (s : State) (g : Nat) (e : Engine) : (s.setEng g e).eng g = e := by
  simp [State.eng, State.setEng]

theorem State.eng_setEng_ne (s : State) {g h : Nat} (e : Engine) (n : h ≠ g) : (s.setEng g e).eng h = s.eng h := by
  simp [State.eng, State.setEng, mget_mset_ne _ _ _ n]

@[simp] theorem State.setEng_setEng (s : State) (g : Nat) (e f : Engine) : (s.setEng g e).setEng g f = s.setEng g f := by
  simp [State.setEng]

@[simp] theorem State.reg_setReg (s : State) (a : Nat) (v : DWord) : (s.setReg a v).reg a = v := by
  simp [State.reg, State.setReg]

theorem State.reg_setReg_ne (s : State) {a b : Nat} (v : DWord) (h : b ≠ a) : (s.setReg a v).reg b = s.reg b := by
  simp [State.reg, State.setReg, mget_mset_ne _ _ _ h]

@[simp] theorem State.reg_setEng (s : State) (g a : Nat) (e : Engine) : (s.setEng g e).reg a = s.reg a := rfl
@[simp] theorem State.get_setEng (s : State) (g a : Nat) (e : Engine) (f : Fld) : (s.setEng g e).get a f = s.get a f := rfl
@[simp] theorem State.bit_setEng (s : State) (g a i : Nat) (e : Engine) : (s.setEng g e).bit a i = s.bit a i := rfl
@[simp] theorem State.eng_setReg (s : State) (a g : Nat) (v : DWord) : (s.setReg a v).eng g = s.eng g := rfl
@[simp] theorem State.eng_put (s : State) (a g : Nat) (f : Fld) (x : Nat) : (s.put a f x).eng g = s.eng g := rfl
@[simp] theorem State.mem_put (s : State) (a : Nat) (f : Fld) (x : Nat) : (s.put a f x).mem = s.mem := rfl

theorem State.get_put_ne (s : State) {a b : Nat} (f h : Fld) (x : Nat) (n : b ≠ a) : (s.put a f x).get b h = s.get b h := by
  simp [State.get, State.put, State.reg_setReg_ne _ _ n]

end Sys2Proof.Machine
end

