-- ==== Sys2Proof/Laws/Engine.lean ====
section
/-!
SUPPORT. What the shared operations of the engines do, said once: issue of an instruction that nothing bars, retirement,
and the one stack operation behind the data instructions.
-/

namespace Sys2Proof

open Machine

namespace Machine

/-! ### Bits of the PSW -/

theorem getLsbD_putBits {i lo w x v : Nat} (hi : i < 32) :
    (BitVec.ofNat 32 (putBits v lo w x)).getLsbD i =
      if lo ≤ i ∧ i < lo + w then x.testBit (i - lo) else v.testBit i := by
  have h1 : v % 2 ^ lo + (x % 2 ^ w) * 2 ^ lo + v / 2 ^ (lo + w) * 2 ^ (lo + w)
      = 2 ^ lo * (2 ^ w * (v / 2 ^ (lo + w)) + x % 2 ^ w) + v % 2 ^ lo := by
    generalize v / 2 ^ (lo + w) = q
    rw [Nat.pow_add]
    ring
  rw [BitVec.getLsbD_ofNat, putBits, h1, Nat.testBit_two_pow_mul_add _ (Nat.mod_lt _ (Nat.two_pow_pos _))]
  simp only [hi, decide_true, Bool.true_and]
  by_cases a : i < lo
  · rw [if_pos a, if_neg (by omega), Nat.testBit_mod_two_pow]
    simp [a]
  · rw [if_neg a, Nat.testBit_two_pow_mul_add _ (Nat.mod_lt _ (Nat.two_pow_pos _))]
    by_cases b : i < lo + w
    · rw [if_pos (by omega), if_pos ⟨by omega, b⟩, Nat.testBit_mod_two_pow]
      simp [show i - lo < w by omega]
    · rw [if_neg (by omega), if_neg (by omega), Nat.testBit_div_two_pow]
      congr 1
      omega

/-- A bit of the PSW after a field is replaced. -/
theorem getLsbD_pswPut (p : Word) (f : Fld) (x : Nat) {i : Nat} (hi : i < 32) :
    (pswPut p f x).getLsbD i = if f.lo ≤ i ∧ i < f.lo + f.w then x.testBit (i - f.lo) else p.getLsbD i :=
  getLsbD_putBits hi

/-- A one-bit field of the PSW. -/
theorem getLsbD_pswBit (p : Word) (k : Nat) (b : Bool) {i : Nat} (hi : i < 32) :
    (pswPut p ⟨k, 1⟩ (bnat b)).getLsbD i = if i = k then b else p.getLsbD i := by
  rw [getLsbD_pswPut _ _ _ hi]
  by_cases h : i = k
  · subst h
    cases b <;> simp [bnat]
  · rw [if_neg (by simp only; omega), if_neg h]

/-- The flags that an instruction writes, and no other bit (R253). -/
theorem flagsAfter_pswFlags (p : Word) (f : Fx) : FlagsAfter p (pswFlags p f) f.c f.v f.sat := by
  intro i hi
  obtain ⟨d, r, c, v, sat⟩ := f
  simp only [pswFlags, Bits.PSW_C, Bits.PSW_V, Bits.PSW_SAT]
  cases sat <;> cases c <;> cases v <;>
    simp only [Bool.false_eq_true, if_false, if_true, Option.getD_none, Option.getD_some, Bool.or_false, Bool.or_true] <;>
    (try rw [show pswPut _ ⟨2, 1⟩ 1 = pswPut _ ⟨2, 1⟩ (bnat true) from rfl]) <;>
    (try simp only [getLsbD_pswBit _ _ _ hi]) <;>
    by_cases h0 : i = 0 <;> by_cases h1 : i = 1 <;> by_cases h2 : i = 2 <;> simp_all

/-! ### Retirement -/

theorem useLine_fields (e : Engine) (g a : Nat) : ∃ ic ln, e.useLine g a = { e with icache := ic, line := ln } := by
  unfold Engine.useLine
  dsimp only
  split
  · exact ⟨e.icache, _, rfl⟩
  · split
    · split
      · exact ⟨_, e.line, rfl⟩
      · exact ⟨e.icache, e.line, rfl⟩
    · exact ⟨e.icache, e.line, rfl⟩

theorem touchLine_fields (e : Engine) (g n : Nat) : ∃ ic ln, e.touchLine g n = { e with icache := ic, line := ln } := by
  unfold Engine.touchLine
  obtain ⟨ic1, l1, h1⟩ := useLine_fields e g (e.arch.pc.toNat / 32 * 32)
  obtain ⟨ic2, l2, h2⟩ := useLine_fields { e with icache := ic1, line := l1 } g
    ((e.arch.pc.toNat + n - 1) % 2 ^ 32 / 32 * 32)
  simp only [h1, h2]
  split
  · split
    · unfold Engine.cacheLine
      split
      · exact ⟨ic2, none, rfl⟩
      · exact ⟨_, none, rfl⟩
    · rename_i l _ _
      exact ⟨ic2, _, rfl⟩
  · exact ⟨ic2, _, rfl⟩

theorem countIn_fields (e : Engine) (r i n : Nat) :
    ∃ pf, e.countIn r i n = { e with arch := { e.arch with perf := pf } } := by
  unfold Engine.countIn
  split
  · exact ⟨_, rfl⟩
  · exact ⟨e.arch.perf, rfl⟩

theorem retireCount_fields (e : Engine) (r : Nat) :
    ∃ pf ms, e.retireCount r = { e with arch := { e.arch with perf := pf }, missed := ms } := by
  unfold Engine.retireCount
  obtain ⟨pf, h⟩ := countIn_fields e r pcRetired 1
  simp only [h]
  split
  · rename_i l hl
    split
    · obtain ⟨pf', h'⟩ := countIn_fields { e with arch := { e.arch with perf := pf } } r pcIcMiss 1
      exact ⟨pf', none, by rw [h']⟩
    · exact ⟨pf, e.missed, rfl⟩
  · exact ⟨pf, e.missed, rfl⟩

theorem stepDone_fields (e : Engine) :
    ∃ sp dp rs, e.stepDone = { e with stepping := sp, dbgPend := dp, dbgReason := rs } := by
  unfold Engine.stepDone
  split
  · exact ⟨_, _, _, rfl⟩
  · exact ⟨e.stepping, e.dbgPend, e.dbgReason, rfl⟩

/-- What retirement does outside the slots of GATE, GRET and ERET: the program counter moves on, the slot is past. -/
theorem State.retire_plain (s : State) (g : Nat) (e : Engine) (n : Nat) (h : PlainSlot e) :
    ∃ pf st ic ln ms sd sr sp dp rs, s.retire g e n = s.setEng g
      { e with
        arch := { e.arch with pc := nextPc e n, perf := pf, settles := st }
        slot := none, icache := ic, line := ln, missed := ms, spillD := sd, spillR := sr, stepping := sp, dbgPend := dp, dbgReason := rs } := by
  unfold State.retire
  obtain ⟨ic, ln, h1⟩ := touchLine_fields e g n
  obtain ⟨sd, sr, h0⟩ : ∃ sd sr, ({ e with icache := ic, line := ln } : Engine).spillsStop =
    { e with icache := ic, line := ln, spillD := sd, spillR := sr } := ⟨_, _, rfl⟩
  obtain ⟨pf, ms, h2⟩ := retireCount_fields { e with icache := ic, line := ln, spillD := sd, spillR := sr } (s.eng g).effRing
  simp only [h1, h0, h2]
  cases hs : e.slot with
  | none =>
    obtain ⟨sp, dp, rs, h3⟩ := stepDone_fields
      { e with arch := { e.arch with pc := nextPc e n, perf := pf, settles := settleTick e.arch.settles }
               slot := none, icache := ic, line := ln, missed := ms, spillD := sd, spillR := sr }
    refine ⟨pf, settleTick e.arch.settles, ic, ln, ms, sd, sr, sp, dp, rs, ?_⟩
    simp only
    rw [← h3]
    simp only [nextPc, hs]
  | some sl =>
    obtain ⟨sp, dp, rs, h3⟩ := stepDone_fields
      { e with arch := { e.arch with pc := nextPc e n, perf := pf, settles := settleTick e.arch.settles }
               slot := none, icache := ic, line := ln, missed := ms, spillD := sd, spillR := sr }
    refine ⟨pf, settleTick e.arch.settles, ic, ln, ms, sd, sr, sp, dp, rs, ?_⟩
    simp only [h sl hs]
    rw [← h3]
    simp only [nextPc, hs, Slot.next]
    cases sl.dest <;> rfl

/-! ### Issue -/

/-- What holds an engine's issue is nothing to its micro-programs. -/
theorem microWalk_hold (s : State) (g : Nat) (h : Hold) :
    ∀ (n a : Nat) (st : List Nat),
      (s.setEng g { s.eng g with hold := h }).microWalk g n a st = s.microWalk g n a st
  | 0, _, _ => rfl
  | n + 1, a, st => by
    have ih := microWalk_hold s g h n
    have hc : ∀ l x c, (s.setEng g { s.eng g with hold := h }).condHolds g l x c = s.condHolds g l x c := by
      intro l x c
      unfold State.condHolds
      simp only [State.eng_setEng]
      rfl
    unfold State.microWalk
    simp only [ih, hc]
    rfl

/-- An instruction that nothing bars runs, on the state whose hold, if any, is past. -/
theorem State.issue_runs (s : State) (g n : Nat) (barred : Bool) (body : State → State) (h : Issues s g n)
    (hb : barred = false ∨ (s.eng g).slot = none) :
    ∃ s', s.issue g n barred true body = body s' ∧ s'.eng g = { s.eng g with hold := .none } ∧
      (∀ e, s'.setEng g e = s.setEng g e) ∧ (s' = s ∨ s' = s.setEng g { s.eng g with hold := .none }) := by
  obtain ⟨h1, h2, h3, h6, h4, h5⟩ := h
  have hs : ∃ s', (if (s.eng g).hold == .none then s else s.modEng g (fun e => { e with hold := .none })) = s' ∧
      s'.eng g = { s.eng g with hold := .none } ∧ (∀ e, s'.setEng g e = s.setEng g e) ∧
      (s' = s ∨ s' = s.setEng g { s.eng g with hold := .none }) := by
    split
    · rename_i hh
      refine ⟨s, rfl, ?_, fun _ => rfl, .inl rfl⟩
      have : (s.eng g).hold = .none := by simpa using hh
      rw [← this]
    · exact ⟨_, rfl, by simp [State.modEng], by intro e; simp [State.modEng], .inr rfl⟩
  obtain ⟨s', e0, e1, e2, e3⟩ := hs
  refine ⟨s', ?_, e1, e2, e3⟩
  have f1 : s'.fetchFault g (s.eng g).arch.pc.toNat n = none := by
    rw [← h3]
    unfold State.fetchFault
    simp only [e1]
    rfl
  have fb : ∀ a, s'.fetchByte g a = s.fetchByte g a := by
    intro a
    unfold State.fetchByte
    simp only [e1]
  have f4 : s'.atHand g (s.eng g).arch.pc.toNat n = true := by
    rw [← h6]
    unfold State.atHand
    simp only [fb]
  have f2 : s'.dispatch g = .done := by
    rw [← h4]
    unfold State.dispatch
    rw [fb, e1]
    rcases e3 with e3 | e3
    · subst e3
      rfl
    · subst e3
      exact microWalk_hold s g .none _ _ _
  have f3 : s'.get (Adr.DBG_TCTL (tileOf g)) Bits.DBG_TCTL_EN = 0 := by
    rw [← h5]
    rcases e3 with e3 | e3 <;> subst e3 <;> rfl
  unfold State.issue State.issueWith
  have g1 : ¬ ((s.eng g).slot.isNone = true ∧ (s.eng g).arrived ≠ []) := by
    intro ⟨a, b⟩
    exact b (h2 (by simpa using a))
  have g2 : ¬ (¬ (true = true) ∨ barred = true ∧ (s'.eng g).slot.isSome = true) := by
    rcases hb with hb | hb <;> simp [hb, e1]
  have hd : s'.dispatched g body = body s' := by
    unfold State.dispatched
    simp only [f2, f3, if_true]
  simp only [h1, Bool.not_true, Bool.false_eq_true, if_false, if_neg g1, e0, f1, f4]
  rcases hb with hb | hb <;> simp [hb, hd]

/-! ### The stack operation -/

theorem limitFault_none {sp lim : Word} {a b : Nat} (h : a ≤ stkDepth sp lim)
    (f : a < b → spOff sp + 4 * (b - a) ≤ limTop lim + 4) : limitFault sp lim a b = none := by
  unfold limitFault
  rw [if_neg (by omega), if_neg]
  rintro ⟨h1, h2⟩
  have := f h1
  omega

theorem poisonAt_none : ∀ (l : List Cell) (sp : Word), (∀ c ∈ l, c.poison = false) → poisonAt sp l = none
  | [], _, _ => rfl
  | c :: r, sp, h => by
    unfold poisonAt
    rw [h c (by simp)]
    exact poisonAt_none r _ (fun c hc => h c (by simp [hc]))

/-- The stack rules let an instruction go whose operands are at hand (R320, R349, R352, R355, R356). -/
theorem Bank.check_tops (b : Bank) (u : StkUse) (d r : List Word) (h : Tops b d r u.dOut u.rOut)
    (hd : u.dIn = d.length) (hr : u.rIn = r.length) (ha : u.peekAt = 0 := by rfl) (hp : u.peek = 0 := by rfl) :
    b.check u = .go d r := by
  have hn : u.dNeed = u.dIn := by simp [StkUse.dNeed, ha, hp]
  have hq : b.dRead u = b.ds.take u.dIn := by simp [Bank.dRead, hp]
  obtain ⟨h1, h2, h3, h4, h5, h6, h7, h8⟩ := h
  have l1 : d.length ≤ b.ds.length := by
    have := congrArg List.length h3
    simp [vals] at this
    omega
  have l2 : r.length ≤ b.rs.length := by
    have := congrArg List.length h4
    simp [vals] at this
    omega
  have sf : b.stackFault u = none := by
    have q1 : limitFault b.dsp b.dslim u.dIn u.dOut = none :=
      limitFault_none (by omega) (by rw [hd]; exact fun x => (h7 x).1)
    have q2 : limitFault b.rsp b.rslim u.rIn u.rOut = none :=
      limitFault_none (by omega) (by rw [hr]; exact fun x => (h8 x).1)
    simp only [Bank.stackFault, hn, ha, hp, Nat.lt_irrefl, false_and, if_false, Nat.add_zero, q1, q2]
  have rm : b.room u = true := by
    have q1 : u.dOut ≤ u.dIn ∨ b.ds.length + u.dOut ≤ 26 + u.dIn := by
      by_cases x : d.length < u.dOut
      · have := (h7 x).2
        omega
      · omega
    have q2 : u.rOut ≤ u.rIn ∨ b.rs.length + u.rOut ≤ 12 + u.rIn := by
      by_cases x : r.length < u.rOut
      · have := (h8 x).2
        omega
      · omega
    simp only [Bank.room, hn, Bool.and_eq_true, Bool.or_eq_true, decide_eq_true_eq]
    exact ⟨⟨⟨by omega, by omega⟩, q1⟩, q2⟩
  have rd : b.ready u = true := by
    simp only [Bank.ready, hq, Bool.and_eq_true, List.all_eq_true, hd, hr]
    exact ⟨fun c hc => by simp [(h5 c hc).1], fun c hc => by simp [(h6 c hc).1]⟩
  unfold Bank.check
  rw [sf]
  simp only [rm, rd, hq, hd, hr, ha, hp, poisonAt_none _ _ (fun c hc => (h5 c (List.mem_of_mem_take hc)).2),
    poisonAt_none _ _ (fun c hc => (h6 c hc).2), h3, h4, List.take_zero, poisonAt]
  simp

/-- Cells that are ready and not poisoned are new cells of their values. -/
theorem newCells_vals : ∀ (l : List Cell), (∀ c ∈ l, c.wait = none ∧ c.poison = false) → newCells none (vals l) = l
  | [], _ => rfl
  | c :: r, h => by
    have hc := h c (by simp)
    have := newCells_vals r (fun x hx => h x (by simp [hx]))
    obtain ⟨v, w, p⟩ := c
    simp only at hc
    simp_all [newCells, vals]

/-- The same for an instruction that peeks at cells behind others, which all stay (R320, R349, R355, R356). -/
theorem Bank.check_peek (b : Bank) (u : StkUse) (d : List Word) (h : Tops b d [] (u.dOut + d.length) 0)
    (hd : u.dIn = 0) (hr : u.rIn = 0) (ho : u.rOut = 0) (hl : d.length = u.peekAt + u.peek) (hp : 0 < u.peek) :
    b.check u = .go (d.drop u.peekAt) [] := by
  obtain ⟨h1, h2, h3, h4, h5, h6, h7, h8⟩ := h
  have hn : u.dNeed = d.length := by simp [StkUse.dNeed, hd, hl]
  have hq : b.dRead u = (b.ds.take d.length).drop u.peekAt := by
    rw [Bank.dRead, hd, hl, List.drop_take]
    simp
  have l1 : d.length ≤ b.ds.length := by
    have := congrArg List.length h3
    simp [vals] at this
    omega
  have sf : b.stackFault u = none := by
    have q1 : limitFault b.dsp b.dslim u.dNeed (u.dOut + (u.peekAt + u.peek)) = none :=
      limitFault_none (by omega) (by rw [hn, ← hl]; exact fun x => by have := (h7 x).1; omega)
    have q2 : limitFault b.rsp b.rslim u.rIn u.rOut = none := limitFault_none (by omega) (by omega)
    simp only [Bank.stackFault, q1, q2, if_neg (show ¬ (0 < u.peek ∧ stkDepth b.dsp b.dslim < u.peekAt) by omega)]
  have rm : b.room u = true := by
    have q1 : u.dOut ≤ u.dIn ∨ b.ds.length + u.dOut ≤ 26 + u.dIn := by
      by_cases x : d.length < u.dOut + d.length
      · have := (h7 x).2
        omega
      · omega
    simp only [Bank.room, hn, ho, hr, Bool.and_eq_true, Bool.or_eq_true, decide_eq_true_eq]
    exact ⟨⟨⟨by omega, by omega⟩, q1⟩, .inl (by omega)⟩
  have hall : ∀ c ∈ b.dRead u, c.wait = none ∧ c.poison = false := by
    rw [hq]
    exact fun c hc => h5 c (List.mem_of_mem_drop hc)
  have rd : b.ready u = true := by
    simp only [Bank.ready, Bool.and_eq_true, List.all_eq_true, hr, List.take_zero, List.not_mem_nil, false_implies,
      implies_true, and_true]
    exact fun c hc => by simp [(hall c hc).1]
  have hv : vals (b.dRead u) = d.drop u.peekAt := by
    rw [hq, vals, List.map_drop, ← vals, h3]
  have hz : (b.ds.drop u.peekAt).take u.peek = b.dRead u := by
    rw [Bank.dRead, hd]
    simp
  unfold Bank.check
  rw [sf]
  simp only [rm, rd, hd, hr, hz, List.take_zero, List.take_nil, poisonAt, poisonAt_none _ _ (fun c hc => (hall c hc).2), hv]
  simp [vals]

/-- Retirement after the stacks, flags and other state of an engine changed: the shape in which every instruction that
completes leaves the block. -/
theorem RunsAs.of_retire {c : Instr} {s s' : State} {g n nd nr : Nat} {e0 e : Engine} {w : Option Nat} {d r : List Word}
    {fx : Fx} (h : exec c s = .next (s'.retire g e n)) (hs : ∀ x, s'.setEng g x = s.setEng g x)
    (hp : PlainSlot (s.eng g)) (he : e = { e0 with
      arch := { e0.arch with pc := (s.eng g).arch.pc, psw := pswFlags (s.eng g).arch.psw fx,
                             bank := (s.eng g).arch.bank.apply { dIn := nd, rIn := nr } w d r }
      slot := (s.eng g).slot, hold := .none, needD := 0, needR := 0 }) :
    RunsAs c s g e0 n nd nr w d r fx.c fx.v fx.sat := by
  obtain ⟨pf, st, ic, ln, ms, sd, sr, sp, dp, rs, e4⟩ := s'.retire_plain g e n (by subst he; exact hp)
  rw [hs] at e4
  refine ⟨_, by rw [h, e4], ⟨_, _, _, pf, st, ic, ln, ms, sd, sr, sp, dp, rs, by subst he; rfl⟩, by subst he; rfl,
    by subst he; exact ⟨rfl, rfl, rfl, rfl, rfl, rfl⟩, by subst he; exact flagsAfter_pswFlags _ _⟩

/-- A data instruction whose operands are at hand: what it pops and pushes, its flags, and nothing else. -/
theorem dataOp_next (c : Instr) (g : Eng) (s : State) (n : Nat) (u : StkUse) (f : Bool → List Word → List Word → Fx)
    (d r : List Word) (hc : exec c s = dataOp g s n true u f) (h : Ready s g n d r u.dOut u.rOut)
    (hd : u.dIn = d.length) (hr : u.rIn = r.length) (ha : u.peekAt = 0 := by rfl) (hq : u.peek = 0 := by rfl) :
    let fx := f (s.eng g).cflag d r
    RunsTo c s g n d.length r.length fx.d fx.r fx.c fx.v fx.sat := by
  intro fx
  obtain ⟨h, hp, ht⟩ := h
  obtain ⟨s', e0, e1, e2, e3⟩ := s.issue_runs g n false (fun s => s.stkOp g n u f) h (.inl rfl)
  have hk : (s'.eng g).arch.bank.check u = .go d r := by
    rw [e1]
    exact Bank.check_tops _ u d r ht hd hr ha hq
  have hf : (s'.eng g).cflag = (s.eng g).cflag := by rw [e1]; rfl
  refine RunsAs.of_retire (s' := s') (fx := fx) (by rw [hc]; unfold dataOp; rw [e0]; simp only [State.stkOp, hk]; rfl) e2 hp ?_
  rw [hf, e1]
  simp only [Engine.gone, Bank.apply, hd, hr, fx]

/-- OVER, PICK and 2OVER: a data instruction that peeks at cells behind others and pushes. -/
theorem peekOp_next (c : Instr) (g : Eng) (s : State) (n : Nat) (u : StkUse) (f : Bool → List Word → List Word → Fx)
    (d : List Word) (hc : exec c s = dataOp g s n true u f) (h : Ready s g n d [] (u.dOut + d.length) 0)
    (hd : u.dIn = 0) (hr : u.rIn = 0) (ho : u.rOut = 0) (hl : d.length = u.peekAt + u.peek) (hp : 0 < u.peek) :
    let fx := f (s.eng g).cflag (d.drop u.peekAt) []
    fx.r = [] → RunsTo c s g n d.length 0 (fx.d ++ d) [] fx.c fx.v fx.sat := by
  intro fx hfr
  obtain ⟨h, hq, ht⟩ := h
  obtain ⟨s', e0, e1, e2, e3⟩ := s.issue_runs g n false (fun s => s.stkOp g n u f) h (.inl rfl)
  have hk : (s'.eng g).arch.bank.check u = .go (d.drop u.peekAt) [] := by
    rw [e1]
    exact Bank.check_peek _ u d ht hd hr ho hl hp
  have hf : (s'.eng g).cflag = (s.eng g).cflag := by rw [e1]; rfl
  have hds : newCells none d ++ (s.eng g).arch.bank.ds.drop d.length = (s.eng g).arch.bank.ds := by
    have := newCells_vals _ ht.readyD
    rw [ht.data] at this
    rw [this, List.take_append_drop]
  refine RunsAs.of_retire (s' := s') (fx := fx) (by rw [hc]; unfold dataOp; rw [e0]; simp only [State.stkOp, hk]; rfl) e2 hq ?_
  rw [hf, e1]
  have hm : newCells none (fx.d ++ d) = newCells none fx.d ++ newCells none d := by simp [newCells]
  have hx : f (s.eng g).cflag (d.drop u.peekAt) [] = fx := rfl
  simp only [Engine.gone, Bank.apply, hd, hr, hx, hm, hfr, List.append_assoc, hds, List.drop_zero, List.length_append]
  simp

/-- A class M instruction whose operands are at hand. -/
theorem mulDivOp_next (c : Instr) (g : Eng) (s : State) (k : FlightKind) (u : StkUse)
    (f : Bool → List Word → List Word → Fx) (d : List Word) (hc : exec c s = mulDivOp g s k u f)
    (h : Ready s g 1 d [] u.dOut u.rOut) (hm : MulDivFree (s.eng g) g) (hd : u.dIn = d.length) (hr : u.rIn = 0)
    (ha : u.peekAt = 0 := by rfl) (hq : u.peek = 0 := by rfl) :
    let fx := f false d []
    RunsMulDiv c s g k 1 d.length fx.d fx.c fx.v fx.sat := by
  intro fx
  obtain ⟨h, hp, ht⟩ := h
  obtain ⟨s', e0, e1, e2, e3⟩ := s.issue_runs g 1 false (fun s => s.mdOp g 1 k u (fun d => f false d [])) h (.inl rfl)
  have hk : (s'.eng g).arch.bank.check u = .go d [] := by
    rw [e1]
    exact Bank.check_tops _ u d [] ht hd hr ha hq
  have hb : (s'.eng g).mdBusy = false := by rw [e1]; exact hm.1
  have hl : ¬ ctSize g ≤ (s'.eng g).flights.length := by
    have := hm.2
    rw [e1]
    simp only
    omega
  refine RunsAs.of_retire (s' := s') (fx := fx)
    (by rw [hc]; unfold mulDivOp; rw [e0]; simp only [State.mdOp, hk, hb, if_neg hl, Bool.false_eq_true, if_false]; rfl) e2 hp ?_
  rw [e1]
  simp only [Engine.gone, Bank.apply, hd, hr, fx, withFlight]

/-- An accumulator instruction whose operands are at hand, in a context that owns the extended state. -/
theorem accCmd_next (c : Instr) (g : Eng) (s : State) (n : Nat) (u : StkUse) (f : DWord → List Word → AccFx)
    (d : List Word) (hc : exec c s = accCmd g s n true u f)
    (h : Ready s g n d [] u.dOut u.rOut) (hm : MulDivFree (s.eng g) g) (ho : OwnsExt s g) (hd : u.dIn = d.length)
    (hr : u.rIn = 0) (ha : u.peekAt = 0 := by rfl) (hq : u.peek = 0 := by rfl) :
    let r := f (s.eng g).arch.ext.acc d
    RunsAs c s g { withFlight (s.eng g) .mul with
      arch := { (s.eng g).arch with ext := { (s.eng g).arch.ext with acc := r.acc } } } n d.length 0
      (some (s.eng g).nextTag) r.fx.d [] r.fx.c r.fx.v r.fx.sat := by
  intro r
  obtain ⟨h, hp, ht⟩ := h
  obtain ⟨s', e0, e1, e2, e3⟩ := s.issue_runs g n false (fun s => s.accOp g n u f) h (.inl rfl)
  have hk : (s'.eng g).arch.bank.check u = .go d [] := by
    rw [e1]
    exact Bank.check_tops _ u d [] ht hd hr ha hq
  have hsf : (s'.eng g).arch.bank.stackFault u = none := by
    have := hk
    unfold Bank.check at this
    split at this
    · simp at this
    · assumption
  have hb : (s'.eng g).mdBusy = false := by rw [e1]; exact hm.1
  have hl : ¬ ctSize g ≤ (s'.eng g).flights.length := by
    have := hm.2
    rw [e1]
    simp only
    omega
  have ho' : OwnsExt s' g := by
    rcases e3 with e3 | e3 <;> subst e3 <;> exact ho
  have hx : s'.get (Adr.CAL_ENG (tileOf g) (engOf g)) Bits.CAL_ENG_XOWN = s'.ctxOf g := ho'.2
  refine RunsAs.of_retire (s' := s') (fx := r.fx)
    (by
      rw [hc]; unfold accCmd; rw [e0]
      simp only [State.accOp, State.withExt, hsf, ho'.1, hx, hk, hb, if_neg hl, BEq.rfl, Bool.and_true, if_true,
        Bool.false_eq_true, if_false]; rfl) e2 hp ?_
  rw [e1]
  simp only [Engine.gone, Bank.apply, hd, hr, r, withFlight]

end Machine

end Sys2Proof
end

