-- ==== Sys2Proof/Laws/Memory.lean ====
section
/-!
SUPPORT. Memory: every operation on it keeps the canonical form, and a byte reads as it was last written.
-/

namespace Sys2Proof.Machine

/-! ### The canonical form -/

theorem memSorted_mono {a b : Nat} (h : a ≤ b) : ∀ m : Memory, memSorted b m = true → memSorted a m = true
  | [], _ => rfl
  | (k, v) :: r, w => by
    simp only [memSorted, Bool.and_eq_true, decide_eq_true_eq] at w ⊢
    exact ⟨⟨by omega, w.1.2⟩, w.2⟩

theorem memSorted_memWr {x : Nat} (a : Nat) (b : Byte) (h : x < a) :
    ∀ m : Memory, memSorted x m = true → memSorted x (memWr m a b) = true
  | [], _ => by
    unfold memWr
    split
    · rfl
    · simp_all [memSorted]
  | (k, v) :: r, w => by
    simp only [memSorted, Bool.and_eq_true, decide_eq_true_eq, bne_iff_ne] at w
    unfold memWr
    split
    · rename_i hk
      split
      · simp_all [memSorted]
      · simp_all [memSorted]
    · split
      · rename_i hk he
        split
        · exact memSorted_mono (by omega) r w.2
        · simp_all [memSorted]
      · rename_i hk he
        have := memSorted_memWr (x := k) a b (by omega) r w.2
        simp_all [memSorted]

/-- A list that is sorted above some address is in canonical form. -/
theorem Memory.wf_of_sorted {x : Nat} : ∀ m : Memory, memSorted x m = true → Memory.wf m = true
  | [], _ => rfl
  | (k, v) :: r, w => by
    simp only [memSorted, Bool.and_eq_true] at w
    simp [Memory.wf, w.1.2, w.2]

/-- The canonical form is that of a list sorted from its own first address. -/
theorem Memory.wf_cons {k : Nat} {v : Byte} {r : Memory} :
    Memory.wf ((k, v) :: r) = true ↔ v ≠ memEmpty ∧ memSorted k r = true := by
  simp [Memory.wf]

/-- A byte written keeps the canonical form. -/
theorem Memory.wf_memWr (m : Memory) (a : Nat) (b : Byte) (h : Memory.wf m = true) : Memory.wf (memWr m a b) = true := by
  cases m with
  | nil =>
    unfold memWr
    split
    · rfl
    · simp_all [Memory.wf, memSorted]
  | cons p r =>
    obtain ⟨k, v⟩ := p
    rw [Memory.wf_cons] at h
    unfold memWr
    split
    · split
      · simp_all [Memory.wf]
      · simp_all [Memory.wf, memSorted]
    · split
      · split
        · exact Memory.wf_of_sorted r h.2
        · simp_all [Memory.wf]
      · rename_i hk he
        rw [Memory.wf_cons]
        exact ⟨h.1, memSorted_memWr a b (by omega) r h.2⟩

/-- Bytes written keep the canonical form. -/
theorem Memory.wf_memWrite (l : List Byte) : ∀ (m : Memory) (a : Nat), Memory.wf m = true →
    Memory.wf (memWrite m a l) = true := by
  induction l with
  | nil => intro m a h; exact h
  | cons b r ih => intro m a h; exact ih _ _ (Memory.wf_memWr m a b h)

theorem memSorted_filter (p : Host.Cell → Bool) : ∀ (m : Memory) (x : Nat), memSorted x m = true →
    memSorted x (m.filter p) = true
  | [], _, _ => rfl
  | (k, v) :: r, x, w => by
    simp only [memSorted, Bool.and_eq_true, decide_eq_true_eq] at w
    have := memSorted_filter p r k w.2
    rw [List.filter_cons]
    split
    · simp_all [memSorted]
    · exact memSorted_mono (by omega) _ this

/-- A region taken out (a clear, a march, a power loss) keeps the canonical form. -/
theorem Memory.wf_filter (p : Host.Cell → Bool) (m : Memory) (h : Memory.wf m = true) : Memory.wf (m.filter p) = true := by
  cases m with
  | nil => rfl
  | cons c r =>
    obtain ⟨k, v⟩ := c
    rw [Memory.wf_cons] at h
    rw [List.filter_cons]
    have := memSorted_filter p r k h.2
    split
    · rw [Memory.wf_cons]; exact ⟨h.1, this⟩
    · exact Memory.wf_of_sorted _ this

/-- The memory after reset lists nothing. -/
theorem State.reset_mem_wf : Memory.wf State.reset.mem = true := rfl

/-! ### Reading what was written -/

theorem memRd_of_sorted (m : Memory) : ∀ {x a : Nat}, memSorted x m = true → a ≤ x → memRd m a = memEmpty := by
  induction m with
  | nil => intros; rfl
  | cons p r ih =>
    obtain ⟨k, v⟩ := p
    intro x a w h
    simp only [memSorted, Bool.and_eq_true, decide_eq_true_eq] at w
    simp only [memRd]
    rw [if_neg (by omega)]
    exact ih w.2 (by omega)

theorem memRd_memWr_sorted (a : Nat) (b : Byte) : ∀ (m : Memory) (x : Nat), memSorted x m = true →
    ∀ c, memRd (memWr m a b) c = if c = a then b else memRd m c
  | [], _, _, c => by
    unfold memWr
    split <;> split <;> simp_all [memRd]
    all_goals omega
  | (k, v) :: r, x, w, c => by
    simp only [memSorted, Bool.and_eq_true, decide_eq_true_eq] at w
    have ih := memRd_memWr_sorted a b r k w.2 c
    unfold memWr
    split
    · rename_i hk
      split
      · rename_i hb
        split
        · rename_i hc
          subst hc hb
          simp only [memRd]
          rw [if_neg (by omega)]
          exact memRd_of_sorted r w.2 (by omega)
        · rfl
      · simp only [memRd]
        by_cases hc : c = a
        · simp [hc]
        · simp [hc, Ne.symm hc]
    · split
      · rename_i hk he
        subst he
        split
        · rename_i hb
          split
          · rename_i hc
            subst hc hb
            exact memRd_of_sorted r w.2 (Nat.le_refl _)
          · rename_i hc
            simp [memRd, Ne.symm hc]
        · simp only [memRd]
          by_cases hc : c = a
          · simp [hc]
          · simp [hc, Ne.symm hc]
      · rename_i hk he
        simp only [memRd, ih]
        by_cases hc : c = a
        · subst hc
          simp [Ne.symm he]
        · simp [hc]

/-- A byte reads as it was written, and every other byte as before. -/
theorem memRd_memWr (m : Memory) (a : Nat) (b : Byte) (h : Memory.wf m = true) (c : Nat) :
    memRd (memWr m a b) c = if c = a then b else memRd m c := by
  cases m with
  | nil => exact memRd_memWr_sorted a b [] 0 rfl c
  | cons p r =>
    obtain ⟨k, v⟩ := p
    rw [Memory.wf_cons] at h
    have ih := memRd_memWr_sorted a b r k h.2 c
    unfold memWr
    split
    · rename_i hk
      split
      · rename_i hb
        split
        · rename_i hc
          subst hc hb
          simp only [memRd]
          rw [if_neg (by omega)]
          exact memRd_of_sorted r h.2 (by omega)
        · rfl
      · simp only [memRd]
        by_cases hc : c = a
        · simp [hc]
        · simp [hc, Ne.symm hc]
    · split
      · rename_i hk he
        subst he
        split
        · rename_i hb
          split
          · rename_i hc
            subst hc hb
            exact memRd_of_sorted r h.2 (Nat.le_refl _)
          · rename_i hc
            simp [memRd, Ne.symm hc]
        · simp only [memRd]
          by_cases hc : c = a
          · simp [hc]
          · simp [hc, Ne.symm hc]
      · rename_i hk he
        simp only [memRd, ih]
        by_cases hc : c = a
        · subst hc
          simp [Ne.symm he]
        · simp [hc]

/-- Bytes written read back, and every other byte as before. -/
theorem memRd_memWrite (l : List Byte) : ∀ (m : Memory) (a : Nat), Memory.wf m = true → ∀ c,
    memRd (memWrite m a l) c = if a ≤ c ∧ c < a + l.length then l.getD (c - a) 0 else memRd m c := by
  induction l with
  | nil => intro m a _ c; rw [if_neg (by simp)]; rfl
  | cons b r ih =>
    intro m a h c
    rw [memWrite, ih _ _ (Memory.wf_memWr m a b h) c, memRd_memWr m a b h c]
    simp only [List.length_cons]
    by_cases h1 : c = a
    · subst h1
      simp
    · by_cases h2 : a + 1 ≤ c ∧ c < a + 1 + r.length
      · obtain ⟨n, hn⟩ : ∃ n, c = a + 1 + n := ⟨c - (a + 1), by omega⟩
        rw [if_pos h2, if_pos (by omega)]
        subst hn
        have e1 : a + 1 + n - (a + 1) = n := by omega
        have e2 : a + 1 + n - a = n + 1 := by omega
        simp [e1, e2]
      · rw [if_neg h2, if_neg h1, if_neg (by omega)]

end Sys2Proof.Machine
end

