-- ==== Sys2Proof/WellFormed.lean ====
section
/-!
DEFINITION. Which terms of `Instr` spell a command: operand values that R262 admits, displacements that the opcode has
(R284), and lists of the length that their event carries. A command that is not well-formed still has a meaning: an
operand outside R262 raises illegal instruction, and an event with a list of another length uses the bytes it has.
-/

namespace Sys2Proof

/-- A special-register number that the table of R249 lists. -/
def srListed (n : Nat) : Bool := n ≤ 0x0E || (0x10 ≤ n && n ≤ 0x1F) || (0x40 ≤ n && n ≤ 0x5F)

/-- Whether a displacement has the form of an opcode with 16- and 32-bit displacements (CALL). -/
def Disp.wide : Disp → Bool
  | .rel8 _ => false
  | _ => true

/-- Whether a displacement has the form of an opcode with 8- and 16-bit displacements (BZ, BNZ and their annulling
forms). -/
def Disp.narrow : Disp → Bool
  | .rel32 _ => false
  | _ => true

/-- Whether a term spells a command of the block. -/
def Instr.wellFormed : Instr → Bool
  | .pick _ k => k.toNat < 16
  | .shli _ k | .shri _ k | .sari _ k => k.toNat < 32
  | .sext _ k => k.toNat == 8 || k.toNat == 16
  | .accq _ k => k.toNat < 64
  | .rdsr _ n | .wrsr _ n => srListed n.toNat
  | .call _ d => d.wide
  | .bz _ d | .bnz _ d | .bzA _ d | .bnzA _ d => d.narrow
  | .lineFill _ a l _ => a.toNat % 32 == 0 && l.length == 32
  | .illegalOpcode _ l => 1 ≤ l.length && l.length ≤ 5
  | .dbdescWrite _ n _ => n.toNat != 0xFFF
  | .addrFrameReturn _ _ _ l _ => l.length ≤ 64
  | .returnSlotReceive _ _ r => r.payload.length ≤ 512
  | .quickCheck _ d | .fullSweep _ d => d.fmax.length == 26 && d.slack.length == 4
  | .trainingComplete _ _ l => l.length == 16
  | .trainingTimeout x => x.rounds.length ≤ 16
  | .pllLock k => k < 15
  | _ => true

end Sys2Proof
end

