-- ==== Sys2Proof/Tests/Slice0.lean ====
section
/-!
SUPPORT. Tests: the well-formedness smoke test, a few worked values of the manual, and for every obligation with hypotheses
a witness that meets them, clause by clause. A witness says what a statement's hypotheses ask of concrete states; none of
them runs more than one command.
-/

set_option Elab.async false
set_option linter.unusedTactic false
set_option linter.unreachableTactic false

namespace Sys2Proof.Tests

open Machine

/-! ### Small states -/

/-- Fields written one after the other. -/
def putL (s : State) (l : List (Nat × Fld × Nat)) : State := l.foldl (fun s x => s.put x.1 x.2.1 x.2.2) s

/-- Run mode, every tile awake. -/
def run : State :=
  putL State.reset ((Adr.BLK_MODE, Bits.BLK_MODE_MODE, 4) ::
    (List.range 12).map (fun t => (Adr.MRG_TSTAT t, Bits.MRG_TSTAT_SLEEP, 0)))

def cells (l : List Word) : List Cell := l.map (fun w => { val := w })

/-- A stack bank whose cached cells are the given ones over a few more. -/
def bank (d r : List Word) : Bank :=
  { dsp := BitVec.ofNat 32 (0x1040 + 4 * d.length), rsp := BitVec.ofNat 32 (0x3040 + 4 * r.length)
    dslim := 0x10001FF8, rslim := 0x30003FF8
    ds := cells d ++ cells [11, 12, 13, 14], rs := cells r ++ cells [21, 22] }

/-- Context 5 runs on engine `g`, owns its extended state, and has the given cells on its stacks. -/
def onEng (s : State) (g : Eng) (psw : Word) (d r : List Word) : State :=
  let s : State := { s with ucStores := [(vertKey g 0, { val := 0x40000000, par := 0 })] }
  let s : State := putL s
    [(Adr.CAL_ENG (tileOf g) (engOf g), Bits.CAL_ENG_PLACED, 1), (Adr.CAL_ENG (tileOf g) (engOf g), Bits.CAL_ENG_CTX, 5),
     (Adr.CAL_ENG (tileOf g) (engOf g), Bits.CAL_ENG_XOWNV, 1), (Adr.CAL_ENG (tileOf g) (engOf g), Bits.CAL_ENG_XOWN, 5),
     (Adr.CAL_CTX_CTL (tileOf g) 5, Bits.CAL_CTX_CTL_STATE, 3)]
  s.setEng g { arch := { psw := psw, bank := bank d r, pr := [0, 0xFFFFFFFF, 3, 4, 5, 6, 7, 8, 9, 10, 11, 12, 13, 14, 15, 16]
                         perf := (List.range 22).map (BitVec.ofNat 32) }
               line := some { adr := 0, bytes := List.replicate 32 0 } }

/-- The same on engine 3 of tile 0, in ring 0 with C set. -/
def at3 (d r : List Word) : State := onEng run 3 0x80000001 d r

/-! ### What the hypotheses say, as checks that compute -/

def issuesB (s : State) (g n : Nat) : Bool :=
  s.canIssue g && ((s.eng g).slot.isSome || (s.eng g).arrived.isEmpty) &&
  (s.fetchFault g (s.eng g).arch.pc.toNat n == none) && s.atHand g (s.eng g).arch.pc.toNat n &&
  decide (s.dispatch g = .done) &&
  (s.get (Adr.DBG_TCTL (tileOf g)) Bits.DBG_TCTL_EN == 0)

theorem issues_of {s : State} {g n : Nat} (h : issuesB s g n = true) : Issues s g n := by
  simp only [issuesB, Bool.and_eq_true, Bool.or_eq_true, beq_iff_eq, List.isEmpty_iff, Option.isSome_iff_ne_none,
    decide_eq_true_eq] at h
  obtain ⟨⟨⟨⟨⟨a, b⟩, c⟩, d⟩, e⟩, f⟩ := h
  exact ⟨a, fun hs => b.resolve_left (fun hn => hn hs), c, d, e, f⟩

def plainB (e : Engine) : Bool :=
  match e.slot with
  | some sl => decide (sl.change = .none)
  | none => true

theorem plain_of {e : Engine} (h : plainB e = true) : PlainSlot e := by
  intro sl hs
  simpa [plainB, hs] using h

def topsB (b : Bank) (d r : List Word) (md mr : Nat) : Bool :=
  decide (d.length ≤ stkDepth b.dsp b.dslim) && decide (r.length ≤ stkDepth b.rsp b.rslim) &&
  (vals (b.ds.take d.length) == d) && (vals (b.rs.take r.length) == r) &&
  decide (∀ c ∈ b.ds.take d.length, c.wait = none ∧ c.poison = false) &&
  decide (∀ c ∈ b.rs.take r.length, c.wait = none ∧ c.poison = false) &&
  decide (d.length < md → spOff b.dsp + 4 * (md - d.length) ≤ limTop b.dslim + 4 ∧ b.ds.length + (md - d.length) ≤ 26) &&
  decide (r.length < mr → spOff b.rsp + 4 * (mr - r.length) ≤ limTop b.rslim + 4 ∧ b.rs.length + (mr - r.length) ≤ 12)

theorem tops_of {b : Bank} {d r : List Word} {md mr : Nat} (h : topsB b d r md mr = true) : Tops b d r md mr := by
  simp only [topsB, Bool.and_eq_true, beq_iff_eq, decide_eq_true_eq] at h
  obtain ⟨⟨⟨⟨⟨⟨⟨a1, a2⟩, a3⟩, a4⟩, a5⟩, a6⟩, a7⟩, a8⟩ := h
  exact ⟨a1, a2, a3, a4, a5, a6, a7, a8⟩

def readyB (s : State) (g n : Nat) (d r : List Word) (md mr : Nat) : Bool :=
  issuesB s g n && plainB (s.eng g) && topsB (s.eng g).arch.bank d r md mr

theorem ready_of {s : State} {g n : Nat} {d r : List Word} {md mr : Nat} (h : readyB s g n d r md mr = true) :
    Ready s g n d r md mr := by
  simp only [readyB, Bool.and_eq_true] at h
  exact ⟨issues_of h.1.1, plain_of h.1.2, tops_of h.2⟩

theorem branch_ready_of {s : State} {g n k : Nat} {d r : List Word} {mr : Nat}
    (h : (readyB s g n d r 0 mr && decide ((s.eng g).slot = none) &&
      decide (s.slotSeen g (((s.eng g).arch.pc.toNat + n) % 2 ^ 32) = .here k)) = true) : BranchReady s g n k d r mr := by
  simp only [Bool.and_eq_true, decide_eq_true_eq] at h
  exact ⟨ready_of h.1.1, h.1.2, h.2⟩

theorem muldiv_of {e : Engine} {g : Nat} (h : e.mdBusy = false ∧ e.flights.length < ctSize g) : MulDivFree e g := h

theorem owns_of {s : State} {g : Nat} (h : s.get (Adr.CAL_ENG (tileOf g) (engOf g)) Bits.CAL_ENG_XOWNV = 1 ∧
    s.get (Adr.CAL_ENG (tileOf g) (engOf g)) Bits.CAL_ENG_XOWN = s.ctxOf g) : OwnsExt s g := h

theorem flips_mget : ∀ (m : Map Mark) (k : Nat), m.all (fun x => decide (x.2.flips < 3)) = true → (mget {} m k).flips < 3
  | [], _, _ => by simp [mget]
  | (i, v) :: r, k, h => by
    simp only [List.all_cons, Bool.and_eq_true, decide_eq_true_eq] at h
    unfold mget
    split
    · exact h.1
    · exact flips_mget r k h.2

theorem sound_of {s : State} (h : Memory.wf s.mem = true ∧ s.marks.all (fun x => decide (x.2.flips < 3)) = true ∧
    ∀ t, t < 12 → s.get (Adr.TIL_MEMINJCTL t) Bits.TIL_MEMINJCTL_ARM = 0) : Sound s :=
  ⟨h.1, fun k => flips_mget s.marks k h.2.1, fun t ht ha => by simp [h.2.2 t ht] at ha⟩

theorem mem_of {g a n x : Nat} (h : (a + n ≤ 0x10000 ∧ x = 0x10000000 + 0x1000000 * (g / 16) + 0x10000 * (g % 16) + a) ∨
    (a % n = 0 ∧ 0x8000000 ≤ a ∧ a < 0x80F8000 ∧ x = 0x10800000 + 0x1000000 * (g / 16) + (a - 0x8000000)) ∨
    (a % n = 0 ∧ 0x20000000 ≤ a ∧ a < 0x20800000 ∧ x = a)) : MemoryAt g a n x := h

theorem clean_of {s : State} {x n : Nat} (h : s.memErr x = false ∧ ∀ i, i < n → s.codeStat (x + i) = .clean) : Clean s x n := h

theorem unbuffered_of {e : Engine} {x n : Nat} (h : ∀ y ∈ e.sb, y.adr + y.bytes.length ≤ x ∨ x + n ≤ y.adr) :
    Unbuffered e x n := h

theorem room_of {e : Engine} {g : Nat} (h : e.flights.length < ctSize g ∧ e.flights.countP Flight.isLoad < maxLoads g) :
    LoadRoom e g := h

theorem serving_of {s : State} {g : Nat} (h : s.inService g = true ∧ s.placed g = true) : Serving s g := h

theorem accepts_of {s : State} {who : Initiator} {p : RegPerm} {unit idx a : Nat}
    (h : (s.targetCode who a true == .ok && (grant p who (s.ringOf who) unit idx == .ok) &&
      ((regTile a).all (fun t => s.sleep t == 0))) = true) : Accepts s who p unit idx a := by
  simp only [Bool.and_eq_true, beq_iff_eq] at h
  refine ⟨h.1.1, h.1.2, fun t ht => ?_⟩
  have := h.2
  rw [ht] at this
  simpa using this

theorem reads_of {s : State} {who : Initiator} {a : Nat}
    (h : (s.sends who && (s.targetCode who a false == .ok) && ((regTile a).all (fun t => s.sleep t == 0))) = true) :
    Reads s who a := by
  simp only [Bool.and_eq_true, beq_iff_eq] at h
  refine ⟨h.1.1, h.1.2, fun t ht => ?_⟩
  have := h.2
  rw [ht] at this
  simpa using this

/-- A command's next state passes a check. -/
def nextB (c : Instr) (s : State) (p : State → Bool) : Bool :=
  match exec c s with
  | .next u => p u
  | _ => false

/-- Engine 3 in a ring, with cells on its data stack. -/
def ring3 (r : Nat) (d : List Word) : State := onEng run 3 (BitVec.ofNat 32 (0x80000001 + r * 0x10000)) d []

/-! ### Witnesses: instructions -/

theorem witness_LiteralsPush :
    Ready (at3 [] []) 3 1 [] [] 1 0 ∧ Ready (at3 [] []) 3 2 [] [] 1 0 ∧ Ready (at3 [] []) 3 3 [] [] 1 0 ∧
    Ready (at3 [] []) 3 5 [] [] 1 0 := by
    repeat' with_reducible apply And.intro
    all_goals first | exact ready_of (by decide +kernel) | exact issues_of (by decide +kernel) |
      exact branch_ready_of (by decide +kernel) | exact muldiv_of (by decide +kernel) |
      exact owns_of (by decide +kernel) | exact plain_of (by decide +kernel) | exact tops_of (by decide +kernel) |
      exact mem_of (by decide +kernel) | exact clean_of (by decide +kernel) |
      exact unbuffered_of (by decide +kernel) | exact room_of (by decide +kernel) |
      exact serving_of (by decide +kernel) | exact sound_of (by decide +kernel) | exact accepts_of (by decide +kernel) |
      exact reads_of (by decide +kernel) | decide +kernel

/-- a, b, c, d = 1, 2, 3, 4; PICK 0 and PICK 15. -/
theorem witness_StackInstructionsMoveCells :
    Ready (at3 [1] []) 3 1 [1] [] 2 0 ∧ Ready (at3 [1] []) 3 1 [1] [] 0 0 ∧
    Ready (at3 [2, 1] []) 3 1 [2, 1] [] 2 0 ∧ Ready (at3 [2, 1] []) 3 1 [2, 1] [] 3 0 ∧
    Ready (at3 [2, 1] []) 3 1 [2, 1] [] 1 0 ∧ Ready (at3 [2, 1] []) 3 1 [2, 1] [] 4 0 ∧
    Ready (at3 [2, 1] []) 3 1 [2, 1] [] 0 0 ∧ Ready (at3 [3, 2, 1] []) 3 1 [3, 2, 1] [] 3 0 ∧
    Ready (at3 [1] []) 3 2 ([] ++ [1]) [] (0 + 2) 0 ∧
    Ready (at3 (List.replicate 15 7 ++ [1]) []) 3 2 (List.replicate 15 7 ++ [1]) [] (15 + 2) 0 ∧
    Ready (at3 [4, 3, 2, 1] []) 3 1 [4, 3, 2, 1] [] 4 0 ∧ Ready (at3 [4, 3, 2, 1] []) 3 1 [4, 3, 2, 1] [] 6 0 ∧
    Ready (at3 [1] []) 3 1 [1] [] 0 1 ∧ Ready (at3 [] [1]) 3 1 [] [1] 1 0 ∧ Ready (at3 [] [1]) 3 1 [] [1] 1 1 ∧
    Ready (at3 [] [1]) 3 1 [] [1] 0 0 := by
    repeat' with_reducible apply And.intro
    all_goals first | exact ready_of (by decide +kernel) | exact issues_of (by decide +kernel) |
      exact branch_ready_of (by decide +kernel) | exact muldiv_of (by decide +kernel) |
      exact owns_of (by decide +kernel) | exact plain_of (by decide +kernel) | exact tops_of (by decide +kernel) |
      exact mem_of (by decide +kernel) | exact clean_of (by decide +kernel) |
      exact unbuffered_of (by decide +kernel) | exact room_of (by decide +kernel) |
      exact serving_of (by decide +kernel) | exact sound_of (by decide +kernel) | exact accepts_of (by decide +kernel) |
      exact reads_of (by decide +kernel) | decide +kernel

theorem witness_LogicalInstructions :
    Ready (at3 [2, 1] []) 3 1 [2, 1] [] 1 0 ∧ Ready (at3 [1] []) 3 1 [1] [] 1 0 := by
    repeat' with_reducible apply And.intro
    all_goals first | exact ready_of (by decide +kernel) | exact issues_of (by decide +kernel) |
      exact branch_ready_of (by decide +kernel) | exact muldiv_of (by decide +kernel) |
      exact owns_of (by decide +kernel) | exact plain_of (by decide +kernel) | exact tops_of (by decide +kernel) |
      exact mem_of (by decide +kernel) | exact clean_of (by decide +kernel) |
      exact unbuffered_of (by decide +kernel) | exact room_of (by decide +kernel) |
      exact serving_of (by decide +kernel) | exact sound_of (by decide +kernel) | exact accepts_of (by decide +kernel) |
      exact reads_of (by decide +kernel) | decide +kernel

/-- Counts 0, 1, 31, 32 and 63 from the stack, with bits above [5:0] set in the first; 0, 1, 31 and 32 in the second byte. -/
theorem witness_ShiftsAndTheirCarry :
    Ready (at3 [0xC0, 5] []) 3 1 [0xC0, 5] [] 1 0 ∧ ((0xC0 : Word).setWidth 6).toNat = 0 ∧
    Ready (at3 [1, 5] []) 3 1 [1, 5] [] 1 0 ∧ ((1 : Word).setWidth 6).toNat = 1 ∧
    Ready (at3 [31, 5] []) 3 1 [31, 5] [] 1 0 ∧ ((31 : Word).setWidth 6).toNat = 31 ∧
    Ready (at3 [32, 5] []) 3 1 [32, 5] [] 1 0 ∧ ((32 : Word).setWidth 6).toNat = 32 ∧
    Ready (at3 [63, 5] []) 3 1 [63, 5] [] 1 0 ∧ ((63 : Word).setWidth 6).toNat = 63 ∧
    Ready (at3 [5] []) 3 2 [5] [] 1 0 ∧ (0 : BitVec 8).toNat = 0 ∧ (1 : BitVec 8).toNat = 1 ∧ (31 : BitVec 8).toNat < 32 ∧
    Issues (at3 [] []) 3 2 ∧ ((at3 [] []).eng 3).flights = [] ∧ 32 ≤ (32 : BitVec 8).toNat := by
    repeat' with_reducible apply And.intro
    all_goals first | exact ready_of (by decide +kernel) | exact issues_of (by decide +kernel) |
      exact branch_ready_of (by decide +kernel) | exact muldiv_of (by decide +kernel) |
      exact owns_of (by decide +kernel) | exact plain_of (by decide +kernel) | exact tops_of (by decide +kernel) |
      exact mem_of (by decide +kernel) | exact clean_of (by decide +kernel) |
      exact unbuffered_of (by decide +kernel) | exact room_of (by decide +kernel) |
      exact serving_of (by decide +kernel) | exact sound_of (by decide +kernel) | exact accepts_of (by decide +kernel) |
      exact reads_of (by decide +kernel) | decide +kernel

theorem witness_AddAndSubtractFlags :
    Ready (at3 [2, 1] []) 3 1 [2, 1] [] 1 0 ∧ Ready (at3 [1] []) 3 1 [1] [] 1 0 ∧ Ready (at3 [1] []) 3 2 [1] [] 1 0 ∧
    Ready (at3 [] []) 3 1 [] [] 0 0 ∧ Ready (at3 [] []) 3 1 [] [] 1 0 := by
    repeat' with_reducible apply And.intro
    all_goals first | exact ready_of (by decide +kernel) | exact issues_of (by decide +kernel) |
      exact branch_ready_of (by decide +kernel) | exact muldiv_of (by decide +kernel) |
      exact owns_of (by decide +kernel) | exact plain_of (by decide +kernel) | exact tops_of (by decide +kernel) |
      exact mem_of (by decide +kernel) | exact clean_of (by decide +kernel) |
      exact unbuffered_of (by decide +kernel) | exact room_of (by decide +kernel) |
      exact serving_of (by decide +kernel) | exact sound_of (by decide +kernel) | exact accepts_of (by decide +kernel) |
      exact reads_of (by decide +kernel) | decide +kernel

theorem witness_ComparisonsAndFlagCells :
    Ready (at3 [2, 1] []) 3 1 [2, 1] [] 1 0 ∧ Ready (at3 [1] []) 3 1 [1] [] 1 0 ∧ Ready (at3 [1] []) 3 2 [1] [] 1 0 ∧
    Issues (at3 [] []) 3 2 ∧ ((at3 [] []).eng 3).flights = [] ∧ (7 : BitVec 8).toNat ≠ 8 ∧ (7 : BitVec 8).toNat ≠ 16 := by
    repeat' with_reducible apply And.intro
    all_goals first | exact ready_of (by decide +kernel) | exact issues_of (by decide +kernel) |
      exact branch_ready_of (by decide +kernel) | exact muldiv_of (by decide +kernel) |
      exact owns_of (by decide +kernel) | exact plain_of (by decide +kernel) | exact tops_of (by decide +kernel) |
      exact mem_of (by decide +kernel) | exact clean_of (by decide +kernel) |
      exact unbuffered_of (by decide +kernel) | exact room_of (by decide +kernel) |
      exact serving_of (by decide +kernel) | exact sound_of (by decide +kernel) | exact accepts_of (by decide +kernel) |
      exact reads_of (by decide +kernel) | decide +kernel

theorem witness_DoubleCellInstructions :
    Ready (at3 [4, 3, 2, 1] []) 3 1 [4, 3, 2, 1] [] 2 0 ∧ Ready (at3 [4, 3, 2, 1] []) 3 1 [4, 3, 2, 1] [] 1 0 ∧
    Ready (at3 [2, 1] []) 3 1 [2, 1] [] 2 0 ∧ Ready (at3 [9, 2, 1] []) 3 1 [9, 2, 1] [] 2 0 ∧
    Ready (at3 [1] []) 3 1 [1] [] 2 0 ∧ Ready (at3 [2, 1] []) 3 1 [2, 1] [] 1 0 := by
    repeat' with_reducible apply And.intro
    all_goals first | exact ready_of (by decide +kernel) | exact issues_of (by decide +kernel) |
      exact branch_ready_of (by decide +kernel) | exact muldiv_of (by decide +kernel) |
      exact owns_of (by decide +kernel) | exact plain_of (by decide +kernel) | exact tops_of (by decide +kernel) |
      exact mem_of (by decide +kernel) | exact clean_of (by decide +kernel) |
      exact unbuffered_of (by decide +kernel) | exact room_of (by decide +kernel) |
      exact serving_of (by decide +kernel) | exact sound_of (by decide +kernel) | exact accepts_of (by decide +kernel) |
      exact reads_of (by decide +kernel) | decide +kernel

theorem witness_MultipliesWaitForTheirUnit :
    MulDivFree ((at3 [2, 1] []).eng 3) 3 ∧ Ready (at3 [2, 1] []) 3 1 [2, 1] [] 1 0 ∧
    Ready (at3 [2, 1] []) 3 1 [2, 1] [] 2 0 := by
    repeat' with_reducible apply And.intro
    all_goals first | exact ready_of (by decide +kernel) | exact issues_of (by decide +kernel) |
      exact branch_ready_of (by decide +kernel) | exact muldiv_of (by decide +kernel) |
      exact owns_of (by decide +kernel) | exact plain_of (by decide +kernel) | exact tops_of (by decide +kernel) |
      exact mem_of (by decide +kernel) | exact clean_of (by decide +kernel) |
      exact unbuffered_of (by decide +kernel) | exact room_of (by decide +kernel) |
      exact serving_of (by decide +kernel) | exact sound_of (by decide +kernel) | exact accepts_of (by decide +kernel) |
      exact reads_of (by decide +kernel) | decide +kernel

/-- Divisors 0 and 2. -/
theorem witness_DividesAndTheirLimits :
    MulDivFree ((at3 [0, 1] []).eng 3) 3 ∧ Ready (at3 [0, 1] []) 3 1 [0, 1] [] 1 0 ∧
    Ready (at3 [0, 1] []) 3 1 [0, 1] [] 2 0 ∧ MulDivFree ((at3 [2, 5, 1] []).eng 3) 3 ∧
    Ready (at3 [2, 5, 1] []) 3 1 [2, 5, 1] [] 2 0 := by
    repeat' with_reducible apply And.intro
    all_goals first | exact ready_of (by decide +kernel) | exact issues_of (by decide +kernel) |
      exact branch_ready_of (by decide +kernel) | exact muldiv_of (by decide +kernel) |
      exact owns_of (by decide +kernel) | exact plain_of (by decide +kernel) | exact tops_of (by decide +kernel) |
      exact mem_of (by decide +kernel) | exact clean_of (by decide +kernel) |
      exact unbuffered_of (by decide +kernel) | exact room_of (by decide +kernel) |
      exact serving_of (by decide +kernel) | exact sound_of (by decide +kernel) | exact accepts_of (by decide +kernel) |
      exact reads_of (by decide +kernel) | decide +kernel

theorem witness_FixedPointInstructions :
    Ready (at3 [2, 1] []) 3 1 [2, 1] [] 1 0 ∧ Ready (at3 [1] []) 3 1 [1] [] 1 0 := by
    repeat' with_reducible apply And.intro
    all_goals first | exact ready_of (by decide +kernel) | exact issues_of (by decide +kernel) |
      exact branch_ready_of (by decide +kernel) | exact muldiv_of (by decide +kernel) |
      exact owns_of (by decide +kernel) | exact plain_of (by decide +kernel) | exact tops_of (by decide +kernel) |
      exact mem_of (by decide +kernel) | exact clean_of (by decide +kernel) |
      exact unbuffered_of (by decide +kernel) | exact room_of (by decide +kernel) |
      exact serving_of (by decide +kernel) | exact sound_of (by decide +kernel) | exact accepts_of (by decide +kernel) |
      exact reads_of (by decide +kernel) | decide +kernel

/-- ACCQ 63 and ACCQ 64 among the operand bytes. -/
theorem witness_AccumulatorInstructions :
    MulDivFree ((at3 [2, 1] []).eng 3) 3 ∧ OwnsExt (at3 [2, 1] []) 3 ∧ Ready (at3 [2, 1] []) 3 1 [2, 1] [] 0 0 ∧
    MulDivFree ((at3 [] []).eng 3) 3 ∧ OwnsExt (at3 [] []) 3 ∧ Ready (at3 [] []) 3 1 [] [] 0 0 ∧
    Ready (at3 [] []) 3 1 [] [] 2 0 ∧ Ready (at3 [] []) 3 2 [] [] 1 0 ∧ (63 : BitVec 8).toNat < 64 ∧
    Issues (at3 [] []) 3 2 ∧ ((at3 [] []).eng 3).flights = [] ∧ 64 ≤ (64 : BitVec 8).toNat := by
    repeat' with_reducible apply And.intro
    all_goals first | exact ready_of (by decide +kernel) | exact issues_of (by decide +kernel) |
      exact branch_ready_of (by decide +kernel) | exact muldiv_of (by decide +kernel) |
      exact owns_of (by decide +kernel) | exact plain_of (by decide +kernel) | exact tops_of (by decide +kernel) |
      exact mem_of (by decide +kernel) | exact clean_of (by decide +kernel) |
      exact unbuffered_of (by decide +kernel) | exact room_of (by decide +kernel) |
      exact serving_of (by decide +kernel) | exact sound_of (by decide +kernel) | exact accepts_of (by decide +kernel) |
      exact reads_of (by decide +kernel) | decide +kernel

theorem witness_ReadSpecialRegisters :
    Ready (at3 [] []) 3 2 [] [] 1 0 ∧ ((at3 [] []).eng 3).flights = [] ∧ ((at3 [] []).eng 3).effRing = 0 ∧
    OwnsExt (at3 [] []) 3 := by
    repeat' with_reducible apply And.intro
    all_goals first | exact ready_of (by decide +kernel) | exact issues_of (by decide +kernel) |
      exact branch_ready_of (by decide +kernel) | exact muldiv_of (by decide +kernel) |
      exact owns_of (by decide +kernel) | exact plain_of (by decide +kernel) | exact tops_of (by decide +kernel) |
      exact mem_of (by decide +kernel) | exact clean_of (by decide +kernel) |
      exact unbuffered_of (by decide +kernel) | exact room_of (by decide +kernel) |
      exact serving_of (by decide +kernel) | exact sound_of (by decide +kernel) | exact accepts_of (by decide +kernel) |
      exact reads_of (by decide +kernel) | decide +kernel

/-- Rings 0 and 1; the pointers at the lowest place of their stacks, the limits, and each that is refused. -/
theorem witness_WriteSpecialRegisters :
    (let s := at3 [0x1040] []
     Ready s 3 2 [0x1040] [] 0 0 ∧ (s.eng 3).flights = [] ∧ (s.eng 3).slot = none ∧ (s.eng 3).effRing = 0 ∧ OwnsExt s 3 ∧
     Sound s ∧ areaOk (0x1040 &&& 0xFFFFFFFC) = true ∧ ptrIn (0x1040 &&& 0xFFFFFFFC) (s.eng 3).arch.bank.dslim = true ∧
     (∀ c ∈ (s.eng 3).arch.bank.ds.drop 1, c.wait = none ∧ c.poison = false)) ∧
    (let s := at3 [0x3000] []
     Ready s 3 2 [0x3000] [] 0 0 ∧ (s.eng 3).flights = [] ∧ (s.eng 3).slot = none ∧ (s.eng 3).effRing = 0 ∧
     Sound s ∧ areaOk (0x3000 &&& 0xFFFFFFFC) = true ∧ ptrIn (0x3000 &&& 0xFFFFFFFC) (s.eng 3).arch.bank.rslim = true ∧
     (∀ c ∈ (s.eng 3).arch.bank.rs, c.wait = none ∧ c.poison = false)) ∧
    (let s := at3 [0x10001FF8] []
     Ready s 3 2 [0x10001FF8] [] 0 0 ∧ (s.eng 3).flights = [] ∧ (s.eng 3).slot = none ∧ (s.eng 3).effRing = 0 ∧
     limOk 0x10001FF8 = true ∧ ptrIn (spMove (s.eng 3).arch.bank.dsp (-1)) 0x10001FF8 = true) ∧
    (let s := at3 [0x30003FF8] []
     Ready s 3 2 [0x30003FF8] [] 0 0 ∧ (s.eng 3).flights = [] ∧ (s.eng 3).slot = none ∧ (s.eng 3).effRing = 0 ∧
     limOk 0x30003FF8 = true ∧ ptrIn (s.eng 3).arch.bank.rsp 0x30003FF8 = true) ∧
    (let s := at3 [0x20000FFC] []
     Ready s 3 2 [0x20000FFC] [] 0 0 ∧ (s.eng 3).flights = [] ∧ (s.eng 3).slot = none ∧ (s.eng 3).effRing = 0 ∧
     areaOk (0x20000FFC &&& 0xFFFFFFFC) = false ∧ ptrIn (0x20000FFC &&& 0xFFFFFFFC) (s.eng 3).arch.bank.dslim = false ∧
     ptrIn (0x20000FFC &&& 0xFFFFFFFC) (s.eng 3).arch.bank.rslim = false ∧
     ptrIn (spMove (s.eng 3).arch.bank.dsp (-1)) 0x20000FFC = false ∧ ptrIn (s.eng 3).arch.bank.rsp 0x20000FFC = false) ∧
    (let s := ring3 1 [0x00010007]
     Ready s 3 2 [0x00010007] [] 0 0 ∧ (s.eng 3).flights = [] ∧ (s.eng 3).slot = none ∧ (s.eng 3).effRing = 1 ∧ OwnsExt s 3 ∧
     (0x00010007 : Word) &&& 0x87030000 = s.psw 3 &&& 0x87030000) := by
    repeat' with_reducible apply And.intro
    all_goals first | exact ready_of (by decide +kernel) | exact issues_of (by decide +kernel) |
      exact branch_ready_of (by decide +kernel) | exact muldiv_of (by decide +kernel) |
      exact owns_of (by decide +kernel) | exact plain_of (by decide +kernel) | exact tops_of (by decide +kernel) |
      exact mem_of (by decide +kernel) | exact clean_of (by decide +kernel) |
      exact unbuffered_of (by decide +kernel) | exact room_of (by decide +kernel) |
      exact serving_of (by decide +kernel) | exact sound_of (by decide +kernel) | exact accepts_of (by decide +kernel) |
      exact reads_of (by decide +kernel) | decide +kernel

/-- Rings 1 and 2, and the numbers at the ends of the ranges. -/
theorem witness_SpecialRegisterRefusals :
    Issues (at3 [] []) 3 2 ∧ ((at3 [] []).eng 3).flights = [] ∧ (0x0F : BitVec 8).toNat = 0x0F ∧
    0x20 ≤ (0x20 : BitVec 8).toNat ∧ (0x3F : BitVec 8).toNat ≤ 0x3F ∧ 0x60 ≤ (0x60 : BitVec 8).toNat ∧
    Issues (ring3 1 [0]) 3 2 ∧ ((ring3 1 [0]).eng 3).flights = [] ∧ 1 ≤ ((ring3 1 [0]).eng 3).effRing ∧
    (0x40 ≤ (0x40 : BitVec 8).toNat ∧ (0x5F : BitVec 8).toNat ≤ 0x5F) ∧
    Tops ((ring3 1 [0]).eng 3).arch.bank [0] [] 0 0 ∧ (0 : Word) &&& 0x87030000 ≠ (ring3 1 [0]).psw 3 &&& 0x87030000 ∧
    Issues (ring3 2 [0]) 3 2 ∧ ((ring3 2 [0]).eng 3).flights = [] ∧ 2 ≤ ((ring3 2 [0]).eng 3).effRing := by
    repeat' with_reducible apply And.intro
    all_goals first | exact ready_of (by decide +kernel) | exact issues_of (by decide +kernel) |
      exact branch_ready_of (by decide +kernel) | exact muldiv_of (by decide +kernel) |
      exact owns_of (by decide +kernel) | exact plain_of (by decide +kernel) | exact tops_of (by decide +kernel) |
      exact mem_of (by decide +kernel) | exact clean_of (by decide +kernel) |
      exact unbuffered_of (by decide +kernel) | exact room_of (by decide +kernel) |
      exact serving_of (by decide +kernel) | exact sound_of (by decide +kernel) | exact accepts_of (by decide +kernel) |
      exact reads_of (by decide +kernel) | decide +kernel

/-- Memory reads 0 here, SLIT 0, so that the delay slot is one byte long. -/
theorem witness_JumpsCallsAndReturns :
    BranchReady (at3 [] []) 3 (Disp.len (.rel8 5)) 1 [] [] 0 ∧ BranchReady (at3 [] []) 3 (Disp.len (.rel16 5)) 1 [] [] 0 ∧
    BranchReady (at3 [] []) 3 (Disp.len (.rel32 5)) 1 [] [] 1 ∧ BranchReady (at3 [] [9]) 3 1 1 [] [9] 0 ∧
    BranchReady (at3 [9] []) 3 1 1 [9] [] 0 ∧ BranchReady (at3 [9] []) 3 1 1 [9] [] 1 := by
    repeat' with_reducible apply And.intro
    all_goals first | exact ready_of (by decide +kernel) | exact issues_of (by decide +kernel) |
      exact branch_ready_of (by decide +kernel) | exact muldiv_of (by decide +kernel) |
      exact owns_of (by decide +kernel) | exact plain_of (by decide +kernel) | exact tops_of (by decide +kernel) |
      exact mem_of (by decide +kernel) | exact clean_of (by decide +kernel) |
      exact unbuffered_of (by decide +kernel) | exact room_of (by decide +kernel) |
      exact serving_of (by decide +kernel) | exact sound_of (by decide +kernel) | exact accepts_of (by decide +kernel) |
      exact reads_of (by decide +kernel) | decide +kernel

/-- Flags 0 and 1; counts 1 and 2 of NEXT. -/
theorem witness_ConditionalBranchesAndNext :
    BranchReady (at3 [0] []) 3 (Disp.len (.rel8 5)) 1 [0] [] 0 ∧ BranchReady (at3 [1] []) 3 (Disp.len (.rel8 5)) 1 [1] [] 0 ∧
    BranchReady (at3 [] [1]) 3 2 1 [] [1] 1 ∧ BranchReady (at3 [] [2]) 3 2 1 [] [2] 1 ∧ Ready (at3 [] []) 3 1 [] [] 0 0 := by
    repeat' with_reducible apply And.intro
    all_goals first | exact ready_of (by decide +kernel) | exact issues_of (by decide +kernel) |
      exact branch_ready_of (by decide +kernel) | exact muldiv_of (by decide +kernel) |
      exact owns_of (by decide +kernel) | exact plain_of (by decide +kernel) | exact tops_of (by decide +kernel) |
      exact mem_of (by decide +kernel) | exact clean_of (by decide +kernel) |
      exact unbuffered_of (by decide +kernel) | exact room_of (by decide +kernel) |
      exact serving_of (by decide +kernel) | exact sound_of (by decide +kernel) | exact accepts_of (by decide +kernel) |
      exact reads_of (by decide +kernel) | decide +kernel

/-- Engine 3 of tile 0 with the bytes `o` behind an instruction of `n` bytes. -/
def slotBytes (n : Nat) (o : List Byte) : State :=
  (at3 [] []).modEng 3 (fun e => { e with line := some { adr := 0, bytes := (List.replicate n 0 ++ o ++ List.replicate 32 0).take 32 } })

/-- What a statement of barred slots asks of engine 3 behind an instruction of `n` bytes, its slot beginning with `o`. -/
def slotFound (s : State) (n : Nat) (o : Byte) : Bool :=
  let a := ((s.eng 3).arch.pc.toNat + n) % 2 ^ 32
  issuesB s 3 n && (s.eng 3).slot.isNone && (s.eng 3).flights.isEmpty && (s.fetchFault 3 a 1 == none) &&
    (s.fetchByte 3 a == some o)

/-- BRA, GATE and a reserved branch as slots; the ends of the undefined opcodes; PICK 16 and WRSR 0x60. -/
theorem witness_BarredDelaySlots :
    slotFound (slotBytes 2 [0x80]) 2 0x80 = true ∧ slotFound (slotBytes 3 [0xC3]) 3 0xC3 = true ∧
    slotFound (slotBytes 1 [0xCF]) 1 0xCF = true ∧ slotFound (slotBytes 5 [0xFF]) 5 0xFF = true ∧ UndefinedOpcode 0xFF ∧
    slotFound (slotBytes 1 [0x5C]) 1 0x5C = true ∧ UndefinedOpcode 0x5C ∧
    (let s := slotBytes 2 [0x27, 16]
     slotFound s 2 0x27 = true ∧ s.fetchFault 3 2 2 = none ∧ s.atHand 3 2 2 = true ∧ s.fetchByte 3 3 = some 16 ∧
     BadOperand 0x27 16) ∧
    (let s := slotBytes 1 [0xD6, 0x60]
     slotFound s 1 0xD6 = true ∧ s.fetchFault 3 1 2 = none ∧ s.atHand 3 1 2 = true ∧ s.fetchByte 3 2 = some 0x60 ∧
     BadOperand 0xD6 0x60) := by
  refine ⟨by decide +kernel, by decide +kernel, by decide +kernel, by decide +kernel, by unfold UndefinedOpcode; decide,
    by decide +kernel, by unfold UndefinedOpcode; decide, ⟨by decide +kernel, by decide +kernel, by decide +kernel,
    by decide +kernel, by unfold BadOperand; decide⟩, ⟨by decide +kernel, by decide +kernel, by decide +kernel,
    by decide +kernel, by unfold BadOperand; decide⟩⟩

/-- One byte, and five and more; ACCQ 64 and SEXT 0. -/
theorem witness_IllegalOpcodeRaises :
    Issues (at3 [] []) 3 (min 5 (([] : List Byte).length + 1)) ∧ UndefinedOpcode 0x5C ∧
    Issues (at3 [] []) 3 (min 5 ((List.replicate 6 (0xFF : Byte)).length + 1)) ∧ UndefinedOpcode 0xFF ∧
    ((at3 [] []).eng 3).flights = [] ∧ Issues (at3 [] []) 3 (min 5 (([] : List Byte).length + 2)) ∧ BadOperand 0xE7 64 ∧
    BadOperand 0x4F 0 := by
  refine ⟨issues_of (by decide +kernel), by unfold UndefinedOpcode; decide, issues_of (by decide +kernel),
    by unfold UndefinedOpcode; decide, by decide +kernel, issues_of (by decide +kernel), by unfold BadOperand; decide,
    by unfold BadOperand; decide⟩

/-- Engine 3 in a ring with gate 7 of its tile as given, and cells on its return stack. -/
def gated (r valid ring cmax : Nat) (rs : List Word) : State :=
  putL (onEng run 3 (BitVec.ofNat 32 (0x80000001 + r * 0x10000)) [] rs)
    [(Adr.TIL_GATE_CTL 0 7, Bits.TIL_GATE_CTL_VALID, valid), (Adr.TIL_GATE_CTL 0 7, Bits.TIL_GATE_CTL_RING, ring),
     (Adr.TIL_GATE_CTL 0 7, Bits.TIL_GATE_CTL_CMAX, cmax), (Adr.TIL_GATE_PC 0 7, ⟨0, 32⟩, 0x4440)]

/-- What a fault of GATE or GRET asks of engine 3. -/
def gateAt (s : State) (len : Nat) : Bool :=
  issuesB s 3 len && (s.eng 3).slot.isNone && (s.eng 3).flights.isEmpty &&
    decide (s.slotSeen 3 (((s.eng 3).arch.pc.toNat + len) % 2 ^ 32) = .here 1)

/-- A gate for ring 2 from ring 2 to ring 0, one that is not valid, one for callers of ring 1, one to ring 3, and one on a
full return stack; and links of GRET that name ring 2 from ring 2, that have another bit set, and that name ring 0, and
one cell where GRET pops two. -/
theorem witness_GatesChangeRing :
    (let s := gated 2 1 0 2 []
     let c := s.reg (Adr.TIL_GATE_CTL 0 7)
     (fldOf c Bits.TIL_GATE_CTL_VALID = 1 ∧ (s.eng 3).effRing ≤ fldOf c Bits.TIL_GATE_CTL_CMAX ∧
       fldOf c Bits.TIL_GATE_CTL_RING ≤ (s.eng 3).effRing)) ∧
    BranchReady (gated 2 1 0 2 []) 3 2 1 [] [] 2 ∧
    (let s := gated 2 0 0 2 []
     gateAt s 2 = true ∧ fldOf (s.reg (Adr.TIL_GATE_CTL 0 7)) Bits.TIL_GATE_CTL_VALID = 0) ∧
    (let s := gated 2 1 0 1 []
     gateAt s 2 = true ∧ fldOf (s.reg (Adr.TIL_GATE_CTL 0 7)) Bits.TIL_GATE_CTL_VALID = 1 ∧
     fldOf (s.reg (Adr.TIL_GATE_CTL 0 7)) Bits.TIL_GATE_CTL_CMAX < (s.eng 3).effRing) ∧
    (let s := gated 2 1 3 2 []
     gateAt s 2 = true ∧ fldOf (s.reg (Adr.TIL_GATE_CTL 0 7)) Bits.TIL_GATE_CTL_VALID = 1 ∧
     (s.eng 3).effRing ≤ fldOf (s.reg (Adr.TIL_GATE_CTL 0 7)) Bits.TIL_GATE_CTL_CMAX ∧
     (s.eng 3).effRing < fldOf (s.reg (Adr.TIL_GATE_CTL 0 7)) Bits.TIL_GATE_CTL_RING) ∧
    (let s := (gated 2 1 0 2 []).modEng 3 (fun e => { e with arch := { e.arch with bank := { e.arch.bank with rsp := 0x3FF8 } } })
     gateAt s 2 = true ∧ fldOf (s.reg (Adr.TIL_GATE_CTL 0 7)) Bits.TIL_GATE_CTL_VALID = 1 ∧
     (s.eng 3).effRing ≤ fldOf (s.reg (Adr.TIL_GATE_CTL 0 7)) Bits.TIL_GATE_CTL_CMAX ∧
     fldOf (s.reg (Adr.TIL_GATE_CTL 0 7)) Bits.TIL_GATE_CTL_RING ≤ (s.eng 3).effRing ∧
     limTop (s.eng 3).arch.bank.rslim + 4 < spOff (s.eng 3).arch.bank.rsp + 8) ∧
    BranchReady (gated 2 0 0 0 [0x20000, 9]) 3 1 1 [] [0x20000, 9] 0 ∧ (0x20000 : Word) &&& 0xFFFCFFFF = 0 ∧
    ((gated 2 0 0 0 [0x20000, 9]).eng 3).effRing ≤ ((0x20000 : Word).extractLsb' 16 2).toNat ∧
    BranchReady (gated 2 0 0 0 [1, 9]) 3 1 1 [] [1, 9] 0 ∧ ((gated 2 0 0 0 [1, 9]).eng 3).flights = [] ∧
    (1 : Word) &&& 0xFFFCFFFF ≠ 0 ∧ BranchReady (gated 2 0 0 0 [0, 9]) 3 1 1 [] [0, 9] 0 ∧
    ((gated 2 0 0 0 [0, 9]).eng 3).flights = [] ∧ (0 : Word) &&& 0xFFFCFFFF = 0 ∧
    ((0 : Word).extractLsb' 16 2).toNat < ((gated 2 0 0 0 [0, 9]).eng 3).effRing ∧
    (let s := (gated 2 0 0 0 []).modEng 3 (fun e => { e with arch := { e.arch with bank := { e.arch.bank with rsp := 0x3004 } } })
     gateAt s 1 = true ∧ stkDepth (s.eng 3).arch.bank.rsp (s.eng 3).arch.bank.rslim = 1) := by
    repeat' with_reducible apply And.intro
    all_goals first | exact ready_of (by decide +kernel) | exact issues_of (by decide +kernel) |
      exact branch_ready_of (by decide +kernel) | exact muldiv_of (by decide +kernel) |
      exact owns_of (by decide +kernel) | exact plain_of (by decide +kernel) | exact tops_of (by decide +kernel) |
      exact mem_of (by decide +kernel) | exact clean_of (by decide +kernel) |
      exact unbuffered_of (by decide +kernel) | exact room_of (by decide +kernel) |
      exact serving_of (by decide +kernel) | exact sound_of (by decide +kernel) | exact accepts_of (by decide +kernel) |
      exact reads_of (by decide +kernel) | decide +kernel

/-- The slot of a GATE to ring 3. -/
def gateSlot : Slot := { dest := some 0x8000, before := ((at3 [] []).eng 3).arch, change := .ring 3 }

theorem witness_SlotOfGateThenRing :
    (let s := (at3 [] []).modEng 3 (fun e => { e with slot := some gateSlot })
     Issues s 3 1 ∧ Tops (s.eng 3).arch.bank [] [] 0 0 ∧ (s.eng 3).slot = some gateSlot ∧ gateSlot.dest = some 0x8000 ∧
     gateSlot.change = .ring 3 ∧ 3 < 4) := by
    repeat' with_reducible apply And.intro
    all_goals first | exact ready_of (by decide +kernel) | exact issues_of (by decide +kernel) |
      exact branch_ready_of (by decide +kernel) | exact muldiv_of (by decide +kernel) |
      exact owns_of (by decide +kernel) | exact plain_of (by decide +kernel) | exact tops_of (by decide +kernel) |
      exact mem_of (by decide +kernel) | exact clean_of (by decide +kernel) |
      exact unbuffered_of (by decide +kernel) | exact room_of (by decide +kernel) |
      exact serving_of (by decide +kernel) | exact sound_of (by decide +kernel) | exact accepts_of (by decide +kernel) |
      exact reads_of (by decide +kernel) | decide +kernel

/-- Rings 0, 1 and 2, with a window open and without one. -/
theorem witness_FirmPredictorAndSync :
    (let s := (ring3 1 []).modEng 3 (fun e => { e with firm := 4 })
     PlainSlot (s.eng 3) ∧ Tops (s.eng 3).arch.bank [] [] 0 0 ∧ (s.eng 3).slot = none ∧ (s.eng 3).flights = [] ∧
     (s.eng 3).effRing ≤ 1 ∧ Issues s 3 3 ∧ 0 < (s.eng 3).firm ∧ (s.eng 3).effRing ≠ 0) ∧
    (let s := at3 [] []
     PlainSlot (s.eng 3) ∧ Tops (s.eng 3).arch.bank [] [] 0 0 ∧ (s.eng 3).slot = none ∧ (s.eng 3).flights = [] ∧
     (s.eng 3).effRing = 0 ∧ Issues s 3 1 ∧ Issues s 3 2 ∧ Issues s 3 3 ∧ (s.eng 3).drained = true ∧ (s.eng 3).firm = 0) ∧
    (let s := ring3 2 []
     PlainSlot (s.eng 3) ∧ Tops (s.eng 3).arch.bank [] [] 0 0 ∧ (s.eng 3).slot = none ∧ (s.eng 3).flights = [] ∧
     2 ≤ (s.eng 3).effRing ∧ Issues s 3 1 ∧ Issues s 3 2 ∧ Issues s 3 3) ∧
    (let s := (at3 [] []).modEng 3 (fun e => { e with errs := [⟨5, 5⟩] })
     PlainSlot (s.eng 3) ∧ Tops (s.eng 3).arch.bank [] [] 0 0 ∧ Issues s 3 1 ∧ (s.eng 3).drained = false) := by
    repeat' with_reducible apply And.intro
    all_goals first | exact ready_of (by decide +kernel) | exact issues_of (by decide +kernel) |
      exact branch_ready_of (by decide +kernel) | exact muldiv_of (by decide +kernel) |
      exact owns_of (by decide +kernel) | exact plain_of (by decide +kernel) | exact tops_of (by decide +kernel) |
      exact mem_of (by decide +kernel) | exact clean_of (by decide +kernel) |
      exact unbuffered_of (by decide +kernel) | exact room_of (by decide +kernel) |
      exact serving_of (by decide +kernel) | exact sound_of (by decide +kernel) | exact accepts_of (by decide +kernel) |
      exact reads_of (by decide +kernel) | decide +kernel

/-! ### Witnesses: memory accesses -/

/-- Loads from the own scratchpad (unaligned), from tile memory and from library memory. -/
theorem witness_LoadsReadMemory :
    (let s := at3 [0x5003] []
     Ready s 3 1 [0x5003] [] 1 0 ∧ Ready s 3 1 [0x5003] [] 2 0 ∧ Ready s 3 2 [0x5003] [] 1 0 ∧ Ready s 3 2 [0x5003] [] 2 0 ∧
     Ready s 3 5 [] [] 1 0 ∧ MemoryAt 3 (0x5003 : Word).toNat 8 0x10035003 ∧ Clean s 0x10035003 8 ∧
     Unbuffered (s.eng 3) 0x10035003 8 ∧ LoadRoom (s.eng 3) 3 ∧
     allowed (s.eng 3).effPr (s.eng 3).effRing (0x5003 : Word).toNat 8 16 = true) ∧
    (let s := at3 [0x80F7FF8] []
     Ready s 3 1 [0x80F7FF8] [] 2 0 ∧ MemoryAt 3 (0x80F7FF8 : Word).toNat 8 0x108F7FF8 ∧ Clean s 0x108F7FF8 8 ∧
     Unbuffered (s.eng 3) 0x108F7FF8 8 ∧ LoadRoom (s.eng 3) 3 ∧
     allowed (s.eng 3).effPr (s.eng 3).effRing (0x80F7FF8 : Word).toNat 8 16 = true) ∧
    (let s := at3 [0x20000000] []
     Ready s 3 1 [0x20000000] [] 1 0 ∧ MemoryAt 3 (0x20000000 : Word).toNat 4 0x20000000 ∧ Clean s 0x20000000 4 ∧
     Unbuffered (s.eng 3) 0x20000000 4 ∧ LoadRoom (s.eng 3) 3 ∧
     allowed (s.eng 3).effPr (s.eng 3).effRing (0x20000000 : Word).toNat 4 16 = true) := by
    repeat' with_reducible apply And.intro
    all_goals first | exact ready_of (by decide +kernel) | exact issues_of (by decide +kernel) |
      exact branch_ready_of (by decide +kernel) | exact muldiv_of (by decide +kernel) |
      exact owns_of (by decide +kernel) | exact plain_of (by decide +kernel) | exact tops_of (by decide +kernel) |
      exact mem_of (by decide +kernel) | exact clean_of (by decide +kernel) |
      exact unbuffered_of (by decide +kernel) | exact room_of (by decide +kernel) |
      exact serving_of (by decide +kernel) | exact sound_of (by decide +kernel) | exact accepts_of (by decide +kernel) |
      exact reads_of (by decide +kernel) | decide +kernel

/-- Stores to the own scratchpad across a 64-bit boundary and within one, and to tile memory. -/
theorem witness_StoresEnterTheBuffer :
    (let s := at3 [0x5006, 8, 7] []
     Ready s 3 1 [0x5006, 8, 7] [] 0 0 ∧ Ready s 3 2 [0x5006, 8, 7] [] 0 0 ∧ MemoryAt 3 (0x5006 : Word).toNat 8 0x10035006 ∧
     allowed (s.eng 3).effPr (s.eng 3).effRing (0x5006 : Word).toNat 8 8 = true ∧ (s.eng 3).sb.length + 2 ≤ sbSize 3) ∧
    (let s := at3 [0x8005000, 7] []
     Ready s 3 1 [0x8005000, 7] [] 0 0 ∧ Ready s 3 2 [0x8005000, 7] [] 0 0 ∧ MemoryAt 3 (0x8005000 : Word).toNat 4 0x10805000 ∧
     allowed (s.eng 3).effPr (s.eng 3).effRing (0x8005000 : Word).toNat 4 8 = true ∧ (s.eng 3).sb.length + 1 ≤ sbSize 3) ∧
    Ready (at3 [7] []) 3 5 [7] [] 0 0 := by
    repeat' with_reducible apply And.intro
    all_goals first | exact ready_of (by decide +kernel) | exact issues_of (by decide +kernel) |
      exact branch_ready_of (by decide +kernel) | exact muldiv_of (by decide +kernel) |
      exact owns_of (by decide +kernel) | exact plain_of (by decide +kernel) | exact tops_of (by decide +kernel) |
      exact mem_of (by decide +kernel) | exact clean_of (by decide +kernel) |
      exact unbuffered_of (by decide +kernel) | exact room_of (by decide +kernel) |
      exact serving_of (by decide +kernel) | exact sound_of (by decide +kernel) | exact accepts_of (by decide +kernel) |
      exact reads_of (by decide +kernel) | decide +kernel

/-- Engine 3 in ring 3 with one protection region, which allows it to execute at the addresses below 64. -/
def closed3 (d : List Word) : State :=
  (ring3 3 d).modEng 3 (fun e => { e with arch := { e.arch with pr := [0, 0x27] ++ List.replicate 14 0 } })

/-- Misaligned at the end of the scratchpad and beyond it; a region that allows nothing; the ends of the unmapped ranges. -/
theorem witness_AccessExceptionsInOrder :
    (Ready (at3 [0xFFFD] []) 3 1 [0xFFFD] [] 1 0 ∧ Ready (at3 [0xFFFD, 7] []) 3 1 [0xFFFD, 7] [] 0 0 ∧
     ((at3 [0xFFFD] []).eng 3).flights = [] ∧ ((at3 [0xFFFD, 7] []).eng 3).flights = [] ∧
     ((0xFFFD : Word).toNat < 0x10000 ∧ 0x10000 < (0xFFFD : Word).toNat + 4 ∧ (0xFFFD : Word).toNat % 4 ≠ 0)) ∧
    (Ready (at3 [0x10001] []) 3 1 [0x10001] [] 1 0 ∧ 0x10000 ≤ (0x10001 : Word).toNat ∧ (0x10001 : Word).toNat % 4 ≠ 0 ∧
     ¬ (0x30000000 ≤ (0x10001 : Word).toNat ∧ (0x10001 : Word).toNat < 0x40000000)) ∧
    (Ready (closed3 [0x5000]) 3 1 [0x5000] [] 1 0 ∧ (0x5000 : Word).toNat % 4 = 0 ∧
     allowed ((closed3 [0x5000]).eng 3).effPr ((closed3 [0x5000]).eng 3).effRing (0x5000 : Word).toNat 4 16 = false) ∧
    (Ready (closed3 [0x5000, 7]) 3 1 [0x5000, 7] [] 0 0 ∧
     allowed ((closed3 [0x5000, 7]).eng 3).effPr ((closed3 [0x5000, 7]).eng 3).effRing (0x5000 : Word).toNat 4 8 = false) ∧
    (Ready (at3 [0x10000] []) 3 1 [0x10000] [] 1 0 ∧ Ready (at3 [0x10000, 7] []) 3 1 [0x10000, 7] [] 0 0 ∧
     ((at3 [0x10000] []).eng 3).effRing = 0 ∧ (0x10000 : Word).toNat % 4 = 0) ∧
    Ready (at3 [0xFFFFFFC, 7] []) 3 1 [0xFFFFFFC, 7] [] 0 0 ∧ (0xFFFFFFC : Word).toNat % 4 = 0 ∧
    Ready (at3 [0x80F8000, 7] []) 3 1 [0x80F8000, 7] [] 0 0 ∧ Ready (at3 [0xFFFFFC, 7] []) 3 1 [0xFFFFFC, 7] [] 0 0 := by
    repeat' with_reducible apply And.intro
    all_goals first | exact ready_of (by decide +kernel) | exact issues_of (by decide +kernel) |
      exact branch_ready_of (by decide +kernel) | exact muldiv_of (by decide +kernel) |
      exact owns_of (by decide +kernel) | exact plain_of (by decide +kernel) | exact tops_of (by decide +kernel) |
      exact mem_of (by decide +kernel) | exact clean_of (by decide +kernel) |
      exact unbuffered_of (by decide +kernel) | exact room_of (by decide +kernel) |
      exact serving_of (by decide +kernel) | exact sound_of (by decide +kernel) | exact accepts_of (by decide +kernel) |
      exact reads_of (by decide +kernel) | decide +kernel

/-- The link to a doubleword of tile memory held, and not held; words and doublewords of tile and library memory. -/
theorem witness_AtomicsOnMemory :
    (let s := at3 [0x8005004, 7] []
     0x10000 ≤ (0x8005004 : Word).toNat ∧ MemoryAt 3 (0x8005004 : Word).toNat 4 0x10805004 ∧ Clean s 0x10805004 4 ∧
     ¬ inChannels 0x10805004 = true ∧ s.writeErr 0x10805004 4 = false ∧ (s.eng 3).quiet = true ∧
     allowed (s.eng 3).effPr (s.eng 3).effRing (0x8005004 : Word).toNat 4 24 = true ∧
     allowed (s.eng 3).effPr (s.eng 3).effRing (0x8005004 : Word).toNat 4 8 = true ∧ Sound s ∧
     Ready s 3 1 [0x8005004, 7] [] 1 0 ∧ Ready s 3 1 [0x8005004] [] 1 0 ∧ (s.eng 3).link ≠ some (0x10805004 / 8 * 8)) ∧
    (let s := (at3 [0x20500008, 8, 7] []).modEng 3 (fun e => { e with link := some 0x20500008 })
     0x10000 ≤ (0x20500008 : Word).toNat ∧ MemoryAt 3 (0x20500008 : Word).toNat 8 0x20500008 ∧ Clean s 0x20500008 8 ∧
     ¬ inChannels 0x20500008 = true ∧ s.writeErr 0x20500008 8 = false ∧ (s.eng 3).quiet = true ∧
     allowed (s.eng 3).effPr (s.eng 3).effRing (0x20500008 : Word).toNat 8 24 = true ∧ Sound s ∧
     Ready s 3 1 [0x20500008] [] 2 0 ∧ Ready s 3 1 [0x20500008, 8, 7] [] 1 0 ∧
     (s.eng 3).link = some (0x20500008 / 8 * 8)) := by
    repeat' with_reducible apply And.intro
    all_goals first | exact ready_of (by decide +kernel) | exact issues_of (by decide +kernel) |
      exact branch_ready_of (by decide +kernel) | exact muldiv_of (by decide +kernel) |
      exact owns_of (by decide +kernel) | exact plain_of (by decide +kernel) | exact tops_of (by decide +kernel) |
      exact mem_of (by decide +kernel) | exact clean_of (by decide +kernel) |
      exact unbuffered_of (by decide +kernel) | exact room_of (by decide +kernel) |
      exact serving_of (by decide +kernel) | exact sound_of (by decide +kernel) | exact accepts_of (by decide +kernel) |
      exact reads_of (by decide +kernel) | decide +kernel

/-- Unaligned; and aligned at the last word below the own tile's scratchpads' end, and at the start of the registers. -/
theorem witness_AtomicsThatFault :
    (let s := at3 [0x8005002, 7] []
     (s.eng 3).flights = [] ∧ (s.eng 3).effRing = 0 ∧ Ready s 3 1 [0x8005002, 7] [] 1 0 ∧ (0x8005002 : Word).toNat % 4 ≠ 0) ∧
    (let s := at3 [0x10FFFFC, 7] []
     (s.eng 3).flights = [] ∧ (s.eng 3).effRing = 0 ∧ Ready s 3 1 [0x10FFFFC, 7] [] 1 0 ∧
     (0x10FFFFC : Word).toNat % 4 = 0 ∧ (0x10FFFFC : Word).toNat < 0x1100000) ∧
    (let s := at3 [0x30000000, 7] []
     (s.eng 3).flights = [] ∧ (s.eng 3).effRing = 0 ∧ Ready s 3 1 [0x30000000, 7] [] 1 0 ∧
     (0x30000000 : Word).toNat % 4 = 0 ∧ 0x30000000 ≤ (0x30000000 : Word).toNat) := by
    repeat' with_reducible apply And.intro
    all_goals first | exact ready_of (by decide +kernel) | exact issues_of (by decide +kernel) |
      exact branch_ready_of (by decide +kernel) | exact muldiv_of (by decide +kernel) |
      exact owns_of (by decide +kernel) | exact plain_of (by decide +kernel) | exact tops_of (by decide +kernel) |
      exact mem_of (by decide +kernel) | exact clean_of (by decide +kernel) |
      exact unbuffered_of (by decide +kernel) | exact room_of (by decide +kernel) |
      exact serving_of (by decide +kernel) | exact sound_of (by decide +kernel) | exact accepts_of (by decide +kernel) |
      exact reads_of (by decide +kernel) | decide +kernel

/-! ### Witnesses: events of an engine -/

/-- A store of five bytes that has retired, and one behind it. -/
def sbe (a : Nat) : SbEntry := { adr := a, bytes := [1, 2, 3, 4, 5], faddr := 5, tag := 0, ctx := 5 }
def storing : State := (at3 [] []).modEng 3 (fun e => { e with sb := [sbe 0x10805001, sbe 0x20005000], link := some 0x10805000 })

theorem witness_StoreBufferDrainWritesMemory :
    (storing.eng 3).sb = sbe 0x10805001 :: [sbe 0x20005000] ∧ (sbe 0x10805001).pair = false ∧
    (storing.eng 3).retired (sbe 0x10805001) = true ∧ Sound storing ∧ (sbe 0x10805001).bytes ≠ [] ∧
    ((memTile (sbe 0x10805001).adr).isSome = true ∨ inLibrary (sbe 0x10805001).adr = true) ∧
    codeBase (sbe 0x10805001).adr = codeBase ((sbe 0x10805001).adr + (sbe 0x10805001).bytes.length - 1) ∧
    storing.writeErr (sbe 0x10805001).adr (sbe 0x10805001).bytes.length = false ∧ inChannels (sbe 0x10805001).adr = false :=
  by
    repeat' with_reducible apply And.intro
    all_goals first | exact ready_of (by decide +kernel) | exact issues_of (by decide +kernel) |
      exact branch_ready_of (by decide +kernel) | exact muldiv_of (by decide +kernel) |
      exact owns_of (by decide +kernel) | exact plain_of (by decide +kernel) | exact tops_of (by decide +kernel) |
      exact mem_of (by decide +kernel) | exact clean_of (by decide +kernel) |
      exact unbuffered_of (by decide +kernel) | exact room_of (by decide +kernel) |
      exact serving_of (by decide +kernel) | exact sound_of (by decide +kernel) | exact accepts_of (by decide +kernel) |
      exact reads_of (by decide +kernel) | decide +kernel

/-- Engine 3 with a multiply and two loads in flight and two errors of stores to come, of contexts 5 and 6. -/
def flying : State := (at3 [] []).modEng 3 (fun e => { e with
  flights := [⟨4, .mul, e.arch, none⟩, ⟨5, .tile, e.arch, none⟩, ⟨6, .fabric, e.arch, none⟩], nextTag := 7
  errs := [⟨0x44, 5⟩, ⟨0x48, 6⟩], firm := 4 })

/-- A line of the own scratchpad and one of the external window; errors of the running context and of another. -/
theorem witness_ResultsLinesAndAnswersArrive :
    ((flying.eng 3).flights.find? (fun y => y.kind == .mul || y.kind == .div)).isSome = true ∧
    (((flying.eng 3).flights.filter (fun y => y.kind == .tile || y.kind == .fabric))[1]?).isSome = true ∧
    (Serving flying 3 ∧ (flying.eng 3).hasLine 3 0x5000 = false ∧
     allowed (flying.eng 3).effPr (flying.eng 3).effRing 0x501F 1 4 = true ∧ fetchPlace 3 0x501F = true ∧
     MemoryAt 3 0x5000 32 0x10035000 ∧ Clean flying 0x10035000 32) ∧
    ((flying.eng 3).hasLine 3 0xBFFFFFE0 = false ∧ allowed (flying.eng 3).effPr (flying.eng 3).effRing 0xBFFFFFFF 1 4 = true ∧
     fetchPlace 3 0xBFFFFFFF = true ∧ 0xBFFFFFE0 < 0xC0000000 ∧ (List.replicate 32 (0 : Byte)).length = 32) ∧
    (flying.eng 3).errs = ⟨0x44, 5⟩ :: [⟨0x48, 6⟩] ∧ flying.placed 3 = true ∧ flying.ctxOf 3 = 5 ∧
    (flying.modEng 3 (fun e => { e with errs := [⟨0x48, 6⟩] })).ctxOf 3 ≠ 6 ∧ 0 < (flying.eng 3).firm ∧
    flying.canIssue 3 = true ∧ (flying.eng 3).effRing = 0 := by
    repeat' with_reducible apply And.intro
    all_goals first | exact ready_of (by decide +kernel) | exact issues_of (by decide +kernel) |
      exact branch_ready_of (by decide +kernel) | exact muldiv_of (by decide +kernel) |
      exact owns_of (by decide +kernel) | exact plain_of (by decide +kernel) | exact tops_of (by decide +kernel) |
      exact mem_of (by decide +kernel) | exact clean_of (by decide +kernel) |
      exact unbuffered_of (by decide +kernel) | exact room_of (by decide +kernel) |
      exact serving_of (by decide +kernel) | exact sound_of (by decide +kernel) | exact accepts_of (by decide +kernel) |
      exact reads_of (by decide +kernel) | decide +kernel

/-- Engine 3 with `n` cells in each cache over more in memory. -/
def deepStack (n : Nat) : State := (at3 [] []).modEng 3 (fun e => { e with arch := { e.arch with
  bank := { e.arch.bank with dsp := 0x1100, rsp := 0x3100, ds := cells (List.replicate n 5), rs := cells (List.replicate (n / 2) 6) } } })

/-- A spill of the return stack (two cells) and, with the return stack settled, of the data stack; a fill of each. -/
theorem witness_StacksSpillAndFill :
    (let s := deepStack 24
     Serving s 3 ∧ Sound s ∧ ((s.eng 3).view true).spillDue = true ∧ 4 * 12 ≤ spOff ((s.eng 3).view true).sp ∧
     s.stackAnswers 3 (spMove ((s.eng 3).view true).sp (-12)) = true ∧
     (∀ c ∈ ((s.eng 3).view true).cells, c.wait = none ∧ c.poison = false)) ∧
    (let s := (deepStack 25).modEng 3 (fun e => { e with arch := { e.arch with
       bank := { e.arch.bank with rsp := 0x3000, rs := [] } } })
     Serving s 3 ∧ Sound s ∧ (s.eng 3).retDue = false ∧ ((s.eng 3).view false).spillDue = true ∧
     4 * 25 ≤ spOff ((s.eng 3).view false).sp ∧ s.stackAnswers 3 (spMove ((s.eng 3).view false).sp (-25)) = true ∧
     (∀ c ∈ ((s.eng 3).view false).cells, c.wait = none ∧ c.poison = false)) ∧
    (let s := deepStack 3
     Serving s 3 ∧ Sound s ∧ ((s.eng 3).view true).fillDue = true ∧
     s.stackAnswers 3 (cellForm ((s.eng 3).view true).sp 1) = true ∧
     Clean s (stkAdr 3 (cellForm ((s.eng 3).view true).sp 1)) 4 ∧
     Clean s (stkAdr 3 (cellForm ((s.eng 3).view true).sp 2)) 4) := by
    repeat' with_reducible apply And.intro
    all_goals first | exact ready_of (by decide +kernel) | exact issues_of (by decide +kernel) |
      exact branch_ready_of (by decide +kernel) | exact muldiv_of (by decide +kernel) |
      exact owns_of (by decide +kernel) | exact plain_of (by decide +kernel) | exact tops_of (by decide +kernel) |
      exact mem_of (by decide +kernel) | exact clean_of (by decide +kernel) |
      exact unbuffered_of (by decide +kernel) | exact room_of (by decide +kernel) |
      exact serving_of (by decide +kernel) | exact sound_of (by decide +kernel) | exact accepts_of (by decide +kernel) |
      exact reads_of (by decide +kernel) | decide +kernel

/-- Engine 3 with doorbell 5 of level 2 pending, or not. -/
def rung (n : Nat) : State :=
  putL (at3 [] []) [(Adr.TIL_PEND 0 0, ⟨5, 1⟩, n), (Adr.BLK_DBDESC 5, Bits.BLK_DBDESC_EN, 1),
    (Adr.BLK_DBDESC 5, Bits.BLK_DBDESC_MASK, 0xFFFF), (Adr.BLK_DBDESC 5, Bits.BLK_DBDESC_LEVEL, 2)]

theorem witness_InterruptRecognition :
    (let s := rung 1
     Serving s 3 ∧ (s.eng 3).exc = none ∧ (s.eng 3).parking = false ∧ s.ucStops 3 = false ∧ (s.eng 3).flights = [] ∧
     (s.eng 3).arrived = [] ∧ s.recognisable 3 (0 < (s.eng 3).firm) = some 2) ∧
    (let s := (rung 1).modEng 3 (fun e => { e with arrived := [⟨5, 5⟩] })
     Serving s 3 ∧ (s.eng 3).exc = none ∧ (s.eng 3).parking = false ∧ s.ucStops 3 = false ∧ (s.eng 3).flights = [] ∧
     (s.eng 3).arrived = [⟨5, 5⟩]) ∧
    (let s := rung 0
     Serving s 3 ∧ (s.eng 3).exc = none ∧ (s.eng 3).parking = false ∧ s.ucStops 3 = false ∧ (s.eng 3).flights = [] ∧
     (s.eng 3).arrived = [] ∧ s.recognisable 3 (0 < (s.eng 3).firm) = none) := by
    repeat' with_reducible apply And.intro
    all_goals first | exact ready_of (by decide +kernel) | exact issues_of (by decide +kernel) |
      exact branch_ready_of (by decide +kernel) | exact muldiv_of (by decide +kernel) |
      exact owns_of (by decide +kernel) | exact plain_of (by decide +kernel) | exact tops_of (by decide +kernel) |
      exact mem_of (by decide +kernel) | exact clean_of (by decide +kernel) |
      exact unbuffered_of (by decide +kernel) | exact room_of (by decide +kernel) |
      exact serving_of (by decide +kernel) | exact sound_of (by decide +kernel) | exact accepts_of (by decide +kernel) |
      exact reads_of (by decide +kernel) | decide +kernel

/-- Engine 3 about to enter exception `x` at nesting depth `n`, with the cells `d` and its frame at 0x5000. -/
def entering (x : Exc) (n : Nat) (d : List Word) : State := (onEng (rung 1) 3 0x80000001 d [5]).modEng 3 (fun e => { e with
  exc := some x, arch := { e.arch with exring := List.replicate n 2, tsbp := 0x5005 } })

/-- A protection exception and an interrupt of level 2. -/
theorem witness_ExceptionEntrySavesTheFrame :
    (let x : Exc := { code := 4, detail := 7, faddr := 0x1234 }
     let s := entering x 6 [7]
     Serving s 3 ∧ Sound s ∧ (s.eng 3).exc = some x ∧ x.code < 12 ∧ (s.eng 3).sb = [] ∧ (s.eng 3).flights = [] ∧
     (s.eng 3).nd < 7 ∧ framePlace 3 (64 * pswGet (s.eng 3).arch.tsbp Bits.TSBP_FRAME) = some 0x10035000 ∧
     pswGet (s.eng 3).arch.tsbp Bits.TSBP_LEFT ≠ 0 ∧ s.writeFails 0x10035000 64 = false ∧
     min 4 (stkDepth (s.eng 3).arch.bank.dsp (s.eng 3).arch.bank.dslim) ≤ (s.eng 3).arch.bank.ds.length ∧
     (∀ c ∈ (s.eng 3).arch.bank.ds.take 4, c.poison = false)) ∧
    (let x : Exc := { code := 14 }
     let s := entering x 0 []
     Serving s 3 ∧ Sound s ∧ (s.eng 3).exc = some x ∧ (12 ≤ x.code ∧ x.code ≤ 16) ∧
     s.recognisable 3 (0 < (s.eng 3).firm) = some (x.code - 12) ∧ (s.eng 3).sb = [] ∧ (s.eng 3).flights = [] ∧
     (s.eng 3).nd < 7 ∧ framePlace 3 (64 * pswGet (s.eng 3).arch.tsbp Bits.TSBP_FRAME) = some 0x10035000 ∧
     pswGet (s.eng 3).arch.tsbp Bits.TSBP_LEFT ≠ 0 ∧ s.writeFails 0x10035000 64 = false ∧
     min 4 (stkDepth (s.eng 3).arch.bank.dsp (s.eng 3).arch.bank.dslim) ≤ (s.eng 3).arch.bank.ds.length ∧
     (∀ c ∈ (s.eng 3).arch.bank.ds.take 4, c.poison = false)) := by
    repeat' with_reducible apply And.intro
    all_goals first | exact ready_of (by decide +kernel) | exact issues_of (by decide +kernel) |
      exact branch_ready_of (by decide +kernel) | exact muldiv_of (by decide +kernel) |
      exact owns_of (by decide +kernel) | exact plain_of (by decide +kernel) | exact tops_of (by decide +kernel) |
      exact mem_of (by decide +kernel) | exact clean_of (by decide +kernel) |
      exact unbuffered_of (by decide +kernel) | exact room_of (by decide +kernel) |
      exact serving_of (by decide +kernel) | exact sound_of (by decide +kernel) | exact accepts_of (by decide +kernel) |
      exact reads_of (by decide +kernel) | decide +kernel

theorem witness_LastGaspFreezesTheEngine :
    (let x : Exc := { code := 11, detail := 0, faddr := 0 }
     let s := entering x 7 [7]
     Serving s 3 ∧ isLead 3 = false ∧ (s.eng 3).exc = some x ∧ x.code < 12 ∧ (s.eng 3).sb = [] ∧ (s.eng 3).flights = [] ∧
     7 ≤ (s.eng 3).nd ∧
     min 4 (stkDepth (s.eng 3).arch.bank.dsp (s.eng 3).arch.bank.dslim) ≤ (s.eng 3).arch.bank.ds.length ∧
     (∀ c ∈ (s.eng 3).arch.bank.ds.take 4, c.poison = false) ∧ s.bit (Adr.TIL_LGSTAT 0) (engOf 3) = false) := by
    repeat' with_reducible apply And.intro
    all_goals first | exact ready_of (by decide +kernel) | exact issues_of (by decide +kernel) |
      exact branch_ready_of (by decide +kernel) | exact muldiv_of (by decide +kernel) |
      exact owns_of (by decide +kernel) | exact plain_of (by decide +kernel) | exact tops_of (by decide +kernel) |
      exact mem_of (by decide +kernel) | exact clean_of (by decide +kernel) |
      exact unbuffered_of (by decide +kernel) | exact room_of (by decide +kernel) |
      exact serving_of (by decide +kernel) | exact sound_of (by decide +kernel) | exact accepts_of (by decide +kernel) |
      exact reads_of (by decide +kernel) | decide +kernel

/-- A frame saved in ring `r`, with four cells, and with the data stack pointer given. -/
def savedFrame (r : Nat) (dsp : Word) : List Word :=
  [0x444, BitVec.ofNat 32 (0x80000007 + r * 0x10000), dsp, 0x3030, 0x10001FF8, 0x30003FF8, 71, 72, 73, 74, 4, 0, 0, 0, 0, 0]

/-- Engine 3 at nesting depth 1, interrupted in ring `q`, before an ERET to the frame `f` at 0x5000. -/
def leaving (q : Nat) (f : List Word) : State :=
  let s := at3 [5] []
  let s := { s with mem := memWrite s.mem 0x10035000 (wordBytes f) }
  s.modEng 3 (fun e => { e with arch := { e.arch with exring := [q], tsbp := 0x5045 } })

/-- ERET in ring 1; to a frame with a data stack pointer out of its area, to one of ring 0 from ring 1, and to one of
ring 1; and the slot of the last. -/
theorem witness_EretRestoresItsFrame :
    (let s := ring3 1 []
     Issues s 3 1 ∧ (s.eng 3).slot = none ∧ (s.eng 3).flights = [] ∧ (s.eng 3).effRing ≠ 0) ∧
    (let f := savedFrame 1 0x22228333
     let s := leaving 1 f
     BranchReady s 3 1 1 [] [] 0 ∧ (s.eng 3).effRing = 0 ∧ (s.eng 3).drained = true ∧
     pswGet (s.eng 3).arch.tsbp Bits.TSBP_FRAME = 0x141 ∧ framePlace 3 (64 * 0x141 - 64) = some 0x10035000 ∧
     Clean s 0x10035000 64 ∧ f = memWords s 0x10035000 16 ∧ (frameBad f).isSome = true) ∧
    (let f := savedFrame 0 0x1030
     let s := leaving 1 f
     BranchReady s 3 1 1 [] [] 0 ∧ Clean s 0x10035000 64 ∧ f = memWords s 0x10035000 16 ∧ frameBad f = none ∧
     (((f.getD 1 0).extractLsb' 16 2).toNat < (s.eng 3).arch.exring.headD 0)) ∧
    (let f := savedFrame 1 0x1030
     let s := leaving 1 f
     BranchReady s 3 1 1 [] [] 0 ∧ Clean s 0x10035000 64 ∧ f = memWords s 0x10035000 16 ∧ frameBad f = none ∧
     (s.eng 3).arch.exring.headD 0 ≤ ((f.getD 1 0).extractLsb' 16 2).toNat) ∧
    (let f := savedFrame 1 0x1030
     let s := leaving 1 f
     let sl : Slot := { dest := some 0x444, before := (s.eng 3).arch, change := .eret f }
     let s := s.modEng 3 (fun e => { e with slot := some sl })
     let b := (s.eng 3).arch.bank
     Issues s 3 1 ∧ Tops b [] [] 0 0 ∧ (s.eng 3).slot = some sl ∧ sl.change = .eret f ∧
     0 < pswGet (s.eng 3).arch.tsbp Bits.TSBP_FRAME ∧ spArea (f.getD 2 0) = spArea b.dsp ∧
     spOff (f.getD 2 0) ≤ spOff b.dsp ∧ spArea (f.getD 3 0) = spArea b.rsp ∧ spOff (f.getD 3 0) ≤ spOff b.rsp) := by
    repeat' with_reducible apply And.intro
    all_goals first | exact ready_of (by decide +kernel) | exact issues_of (by decide +kernel) |
      exact branch_ready_of (by decide +kernel) | exact muldiv_of (by decide +kernel) |
      exact owns_of (by decide +kernel) | exact plain_of (by decide +kernel) | exact tops_of (by decide +kernel) |
      exact mem_of (by decide +kernel) | exact clean_of (by decide +kernel) |
      exact unbuffered_of (by decide +kernel) | exact room_of (by decide +kernel) |
      exact serving_of (by decide +kernel) | exact sound_of (by decide +kernel) | exact accepts_of (by decide +kernel) |
      exact reads_of (by decide +kernel) | decide +kernel

/-! ### Witnesses: what memory and the registers refuse -/

/-- A March C− runs over tile 0's memory of one bank group and over a library bank. -/
def marching (s : State) : State :=
  putL { s with marches := [(0, 0x28000000), (12, 0x20800000)] }
    [(Adr.TIL_MARCHST 0, Bits.TIL_MARCHST_BUSY, 1), (Adr.TIL_MARCHST 0, Bits.TIL_MARCHST_OP, 2),
     (Adr.BLK_LIBMARCHST, Bits.TIL_MARCHST_BUSY, 1), (Adr.BLK_LIBMARCHST, Bits.TIL_MARCHST_OP, 2)]

/-- Poisoned words of the own scratchpad, of tile memory and of the library. -/
def poisoned (s : State) : State :=
  { s with marks := [(0x10035008, { poison := true }), (0x10805000, { poison := true })] }

/-- Engine 3 in a ring with three regions: it may execute below 64, and read and write from 0x5000 to 0x503F. -/
def fenced3 (d : List Word) : State :=
  (ring3 3 d).modEng 3 (fun e => { e with arch := { e.arch with pr := [0, 0x27, 0x5000, 0x503B] ++ List.replicate 12 0 } })

/-- A load and a store whose upper part at 0x5040 is barred; a store of ring 1 to BLK_MODE; a load of an address of no
register; a load of a bank in a march; and a load whose upper part is uncorrectable. -/
theorem witness_AccessExceptionsOfTheTarget :
    (let s := fenced3 [0x503E, 7]
     Ready s 3 1 [0x503E] [] 1 0 ∧ Ready s 3 1 [0x503E, 7] [] 0 0 ∧ (s.eng 3).flights = [] ∧
     allowed (s.eng 3).effPr (s.eng 3).effRing 0x503E 4 16 = false ∧
     allowed (s.eng 3).effPr (s.eng 3).effRing 0x503E 2 16 = true ∧
     allowed (s.eng 3).effPr (s.eng 3).effRing 0x503E 4 8 = false ∧
     allowed (s.eng 3).effPr (s.eng 3).effRing 0x503E 2 8 = true ∧ 8 < 0x503E % 8 + 4) ∧
    (let s := ring3 1 [BitVec.ofNat 32 Adr.BLK_MODE, 7]
     Ready s 3 1 [BitVec.ofNat 32 Adr.BLK_MODE, 7] [] 0 0 ∧ (s.eng 3).flights = [] ∧
     allowed (s.eng 3).effPr (s.eng 3).effRing Adr.BLK_MODE 4 8 = true ∧
     (regRef (BitVec.ofNat 32 Adr.BLK_MODE).toNat).any (fun r => !r.view &&
       grantEngine r.row.perm 3 (s.eng 3).effRing r.unit r.i == .priv 3) = true) ∧
    (let s := at3 [0x3FFFFFF8] []
     Ready s 3 1 [0x3FFFFFF8] [] 1 0 ∧ (s.eng 3).flights = [] ∧ regRef (0x3FFFFFF8 : Word).toNat = none ∧
     (s.eng 3).drained = true ∧ allowed (s.eng 3).effPr (s.eng 3).effRing 0x3FFFFFF8 4 16 = true) ∧
    (let s := marching (at3 [0x20500000] [])
     Ready s 3 1 [0x20500000] [] 1 0 ∧ MemoryAt 3 0x20500000 4 0x20500000 ∧ Unbuffered (s.eng 3) 0x20500000 4 ∧
     LoadRoom (s.eng 3) 3 ∧ s.memErr 0x20500000 = true) ∧
    (let s := poisoned (at3 [0x5006] [])
     Ready s 3 1 [0x5006] [] 1 0 ∧ MemoryAt 3 0x5006 4 0x10035006 ∧ Unbuffered (s.eng 3) 0x10035006 4 ∧
     LoadRoom (s.eng 3) 3 ∧ s.memErr 0x10035006 = false ∧ s.codeStat 0x10035006 = .clean ∧
     s.codeStat (0x10035006 + 4 - 1) = .bad) := by
    repeat' with_reducible apply And.intro
    all_goals first | exact ready_of (by decide +kernel) | exact issues_of (by decide +kernel) |
      exact branch_ready_of (by decide +kernel) | exact muldiv_of (by decide +kernel) |
      exact owns_of (by decide +kernel) | exact plain_of (by decide +kernel) | exact tops_of (by decide +kernel) |
      exact mem_of (by decide +kernel) | exact clean_of (by decide +kernel) |
      exact unbuffered_of (by decide +kernel) | exact room_of (by decide +kernel) |
      exact serving_of (by decide +kernel) | exact sound_of (by decide +kernel) | exact accepts_of (by decide +kernel) |
      exact reads_of (by decide +kernel) | decide +kernel

/-- Protection, and a bank in a march. -/
theorem witness_AtomicsThatTheTargetRefuses :
    (let s := closed3 [0x8005000, 7]
     (s.eng 3).flights = [] ∧ Ready s 3 1 [0x8005000, 7] [] 1 0 ∧
     allowed (s.eng 3).effPr (s.eng 3).effRing 0x8005000 4 24 = false ∧
     allowed (s.eng 3).effPr (s.eng 3).effRing 0x8005000 4 8 = false) ∧
    (let s := marching (at3 [0x20500000, 7] [])
     (s.eng 3).flights = [] ∧ Ready s 3 1 [0x20500000, 7] [] 1 0 ∧ MemoryAt 3 0x20500000 4 0x20500000 ∧
     (s.eng 3).quiet = true ∧ s.memErr 0x20500000 = true) := by
    repeat' with_reducible apply And.intro
    all_goals first | exact ready_of (by decide +kernel) | exact issues_of (by decide +kernel) |
      exact branch_ready_of (by decide +kernel) | exact muldiv_of (by decide +kernel) |
      exact owns_of (by decide +kernel) | exact plain_of (by decide +kernel) | exact tops_of (by decide +kernel) |
      exact mem_of (by decide +kernel) | exact clean_of (by decide +kernel) |
      exact unbuffered_of (by decide +kernel) | exact room_of (by decide +kernel) |
      exact serving_of (by decide +kernel) | exact sound_of (by decide +kernel) | exact accepts_of (by decide +kernel) |
      exact reads_of (by decide +kernel) | decide +kernel

/-- Engine 3 with the given store in its buffer. -/
def draining (x : SbEntry) (r : List SbEntry) : State := (at3 [] []).modEng 3 (fun e => { e with sb := x :: r })

/-- Behind a multiply; to a bank in a march; to no memory; to the external window; to a register of tile 0 and to no
register; and a pair, whole and with its second half in a march. -/
theorem witness_StoreBufferDrainsElsewhere :
    (let s := (draining { sbe 0x20005000 with tag := 6 } []).modEng 3 (fun e => { e with
       flights := [⟨4, .div, e.arch, none⟩], nextTag := 7 })
     (s.eng 3).retired { sbe 0x20005000 with tag := 6 } = false) ∧
    (let s := marching (draining (sbe 0x20500000) [])
     (s.eng 3).retired (sbe 0x20500000) = true ∧ inLibrary (sbe 0x20500000).adr = true ∧
     codeBase (sbe 0x20500000).adr = codeBase ((sbe 0x20500000).adr + 4) ∧ inChannels (sbe 0x20500000).adr = false ∧
     s.writeErr 0x20500000 5 = true) ∧
    sharedPlace none (sbe 0x1D000000).adr = .unmapped ∧
    (0x40000000 ≤ (sbe 0x40000000).adr ∧ (sbe 0x40000000).adr < 0xC0000000) ∧
    (let x : SbEntry := { sbe (Adr.TIL_GATE_PC 0 7) with bytes := List.replicate 4 0 }
     let s := draining x []
     (s.eng 3).retired x = true ∧ x.pair = false ∧ inRegSpace x.adr = true ∧
     ((s.setEng 3 { s.eng 3 with sb := [] }).regWrite (.engine 3) x.ring x.adr 4 (BitVec.ofNat 64 (leVal x.bytes))).1 =
       .done .ok) ∧
    (let x : SbEntry := { sbe 0x3FFFFFF8 with bytes := List.replicate 8 0 }
     let s := draining x []
     (s.eng 3).retired x = true ∧ inRegSpace x.adr = true ∧
     ((s.setEng 3 { s.eng 3 with sb := [] }).regWrite (.engine 3) x.ring x.adr 8 (BitVec.ofNat 64 (leVal x.bytes))).1 =
       .done .err) ∧
    (let x : SbEntry := { sbe 0x10035003 with pair := true }
     let y : SbEntry := { sbe 0x10035008 with bytes := [6, 7, 8] }
     let s := draining x [y]
     (s.eng 3).retired x = true ∧ x.pair = true ∧ y.adr = x.adr + x.bytes.length ∧ Sound s ∧ (memTile x.adr).isSome = true ∧
     (memTile y.adr).isSome = true ∧ codeBase x.adr = codeBase (x.adr + 4) ∧ codeBase y.adr = codeBase (y.adr + 2) ∧
     inChannels x.adr = false ∧ inChannels y.adr = false ∧ s.writeErr x.adr 5 = false ∧ s.writeErr y.adr 3 = false) := by
    repeat' with_reducible apply And.intro
    all_goals first | exact ready_of (by decide +kernel) | exact issues_of (by decide +kernel) |
      exact branch_ready_of (by decide +kernel) | exact muldiv_of (by decide +kernel) |
      exact owns_of (by decide +kernel) | exact plain_of (by decide +kernel) | exact tops_of (by decide +kernel) |
      exact mem_of (by decide +kernel) | exact clean_of (by decide +kernel) |
      exact unbuffered_of (by decide +kernel) | exact room_of (by decide +kernel) |
      exact serving_of (by decide +kernel) | exact sound_of (by decide +kernel) | exact accepts_of (by decide +kernel) |
      exact reads_of (by decide +kernel) | decide +kernel

/-- Engine 3 at `pc` with a line of the window held and a vector line at 0x1000 still to come. -/
def fetching (pc : Word) (vectors : List ILine) : State := (at3 [] []).modEng 3 (fun e => { e with
  vectors := vectors, line := some { adr := 0x5000, bytes := List.replicate 32 0 }, arch := { e.arch with pc := pc } })

/-- The vector line that is due; the line that is held; a bank in a march, with the pc in its line and elsewhere; the end
of the external window; a line in no fetch place and one that may not be executed; and a clear by ring 1. -/
theorem witness_LinesThatAreNotFilled :
    (let s := fetching 0 [{ adr := 0x1000, bytes := [] }]
     Serving s 3 ∧ (s.eng 3).vectorDue 0x1000 = true) ∧
    (let s := fetching 0 []
     Serving s 3 ∧ (s.eng 3).vectorDue 0x5000 = false ∧ (s.eng 3).line.any (fun y => y.adr == 0x5000) = true) ∧
    (let s := marching (fetching 0x20500004 [])
     Serving s 3 ∧ (s.eng 3).vectorDue 0x20500000 = false ∧ s.memErr 0x20500000 = true ∧ fetchPlace 3 0x20500000 = true ∧
     allowed (s.eng 3).effPr (s.eng 3).effRing 0x20500000 1 4 = true ∧ MemoryAt 3 0x20500000 32 0x20500000 ∧
     (s.eng 3).arch.pc.toNat = 0x20500004) ∧
    (let s := marching (fetching 0 [])
     s.memErr 0x20500000 = true ∧ (s.eng 3).hasLine 3 0x20500000 = false ∧ (s.eng 3).arch.pc.toNat + 10 ≤ 0x20500000) ∧
    fetchPlace 3 0xC0000000 = false ∧ (closed3 []).inService 3 = true ∧
    allowed ((closed3 []).eng 3).effPr ((closed3 []).eng 3).effRing 0x5000 1 4 = false ∧
    (ring3 1 []).canIssue 3 = true ∧ ((ring3 1 []).eng 3).effRing ≠ 0 ∧ ((ring3 1 []).eng 3).flights = [] := by
    repeat' with_reducible apply And.intro
    all_goals first | exact ready_of (by decide +kernel) | exact issues_of (by decide +kernel) |
      exact branch_ready_of (by decide +kernel) | exact muldiv_of (by decide +kernel) |
      exact owns_of (by decide +kernel) | exact plain_of (by decide +kernel) | exact tops_of (by decide +kernel) |
      exact mem_of (by decide +kernel) | exact clean_of (by decide +kernel) |
      exact unbuffered_of (by decide +kernel) | exact room_of (by decide +kernel) |
      exact serving_of (by decide +kernel) | exact sound_of (by decide +kernel) | exact accepts_of (by decide +kernel) |
      exact reads_of (by decide +kernel) | decide +kernel

/-- A fill of the return stack whose word is uncorrectable. -/
theorem witness_StackFillPoisons :
    (let s := deepStack 3
     let below := cellForm ((s.eng 3).view true).sp 1
     let s : State := { s with marks := [(codeBase (stkAdr 3 below), { poison := true })] }
     Serving s 3 ∧ Sound s ∧ ((s.eng 3).view true).fillDue = true ∧ s.stackAnswers 3 below = true ∧
     s.codeStat (stkAdr 3 below) = .bad) := by
    repeat' with_reducible apply And.intro
    all_goals first | exact ready_of (by decide +kernel) | exact issues_of (by decide +kernel) |
      exact branch_ready_of (by decide +kernel) | exact muldiv_of (by decide +kernel) |
      exact owns_of (by decide +kernel) | exact plain_of (by decide +kernel) | exact tops_of (by decide +kernel) |
      exact mem_of (by decide +kernel) | exact clean_of (by decide +kernel) |
      exact unbuffered_of (by decide +kernel) | exact room_of (by decide +kernel) |
      exact serving_of (by decide +kernel) | exact sound_of (by decide +kernel) | exact accepts_of (by decide +kernel) |
      exact reads_of (by decide +kernel) | decide +kernel

/-- A multiply in flight, a divide behind it, and a load of tile memory; an interrupt and a deferred bus error. -/
theorem witness_InterruptRecognitionInFlight :
    (let s := (rung 1).modEng 3 (fun e => { e with flights := [⟨4, .mul, e.arch, none⟩], nextTag := 5 })
     Serving s 3 ∧ s.ucStops 3 = false ∧ s.recognisable 3 false = some 2 ∧ (s.eng 3).firm = 0 ∧
     (∀ f ∈ (s.eng 3).flights, f.kind = .mul)) ∧
    (let s := (rung 1).modEng 3 (fun e => { e with flights := [⟨4, .mul, e.arch, none⟩, ⟨5, .div, e.arch, none⟩], nextTag := 6 })
     s.recognisable 3 false = some 2 ∧ (∀ y ∈ (s.eng 3).flights, y.kind ≠ .tile) ∧
     ((s.eng 3).flights.find? (fun y => y.kind != .mul)).isSome = true) ∧
    (let s := (rung 1).modEng 3 (fun e => { e with flights := [⟨5, .tile, e.arch, none⟩], nextTag := 6 })
     s.recognisable 3 false = some 2 ∧ (∃ y ∈ (s.eng 3).flights, y.kind = .tile)) ∧
    (let s := (rung 1).modEng 3 (fun e => { e with flights := [⟨5, .tile, e.arch, none⟩], nextTag := 6, arrived := [⟨5, 5⟩] })
     (s.eng 3).arrived = ⟨5, 5⟩ :: [] ∧ (s.eng 3).flights ≠ []) := by
    repeat' with_reducible apply And.intro
    all_goals first | exact ready_of (by decide +kernel) | exact issues_of (by decide +kernel) |
      exact branch_ready_of (by decide +kernel) | exact muldiv_of (by decide +kernel) |
      exact owns_of (by decide +kernel) | exact plain_of (by decide +kernel) | exact tops_of (by decide +kernel) |
      exact mem_of (by decide +kernel) | exact clean_of (by decide +kernel) |
      exact unbuffered_of (by decide +kernel) | exact room_of (by decide +kernel) |
      exact serving_of (by decide +kernel) | exact sound_of (by decide +kernel) | exact accepts_of (by decide +kernel) |
      exact reads_of (by decide +kernel) | decide +kernel

/-- An interrupt of level 0 whose entry meets level 2. -/
theorem witness_LateInterruptIsTaken :
    (let x : Exc := { code := 12 }
     let s := entering x 0 []
     (s.eng 3).exc = some x ∧ s.recognisable 3 (0 < (s.eng 3).firm) = some 2 ∧ x.code < 12 + 2 ∧
     (∀ i, i < 16 → s.writeFails (0x10035000 + 4 * i) 4 = false)) := by
    repeat' with_reducible apply And.intro
    all_goals first | exact ready_of (by decide +kernel) | exact issues_of (by decide +kernel) |
      exact branch_ready_of (by decide +kernel) | exact muldiv_of (by decide +kernel) |
      exact owns_of (by decide +kernel) | exact plain_of (by decide +kernel) | exact tops_of (by decide +kernel) |
      exact mem_of (by decide +kernel) | exact clean_of (by decide +kernel) |
      exact unbuffered_of (by decide +kernel) | exact room_of (by decide +kernel) |
      exact serving_of (by decide +kernel) | exact sound_of (by decide +kernel) | exact accepts_of (by decide +kernel) |
      exact reads_of (by decide +kernel) | decide +kernel

/-- Engine 3 about to enter exception 4, its frame at `tsbp`. -/
def gasping (code : Nat) (tsbp : Word) : State :=
  (entering { code := code } 0 [7]).modEng 3 (fun e => { e with arch := { e.arch with tsbp := tsbp } })

/-- A frame outside the scratchpads, no place left, a frame on an uncorrectable word, and a machine check, with a record held. -/
theorem witness_LastGaspReasons :
    (let s := gasping 4 0x40000005
     Serving s 3 ∧ s.ctxOf 3 = 5 ∧ framePlace 3 (64 * pswGet (s.eng 3).arch.tsbp Bits.TSBP_FRAME) = none ∧ (s.eng 3).nd < 7) ∧
    (let s := gasping 4 0x5000
     framePlace 3 (64 * pswGet (s.eng 3).arch.tsbp Bits.TSBP_FRAME) = some 0x10035000 ∧
     pswGet (s.eng 3).arch.tsbp Bits.TSBP_LEFT = 0) ∧
    (let s := poisoned (gasping 4 0x5005)
     framePlace 3 (64 * pswGet (s.eng 3).arch.tsbp Bits.TSBP_FRAME) = some 0x10035000 ∧
     pswGet (s.eng 3).arch.tsbp Bits.TSBP_LEFT ≠ 0 ∧ s.writeFails (0x10035000 + 4 * 2) 4 = true) ∧
    (let s := (gasping 18 0x5005).put (Adr.TIL_LGSTAT 0) ⟨3, 1⟩ 1
     Serving s 3 ∧ s.bit (Adr.TIL_LGSTAT 0) (engOf 3) = true ∧ (s.eng 3).sb = [] ∧ (s.eng 3).flights = [] ∧
     min 4 (stkDepth (s.eng 3).arch.bank.dsp (s.eng 3).arch.bank.dslim) ≤ (s.eng 3).arch.bank.ds.length) := by
    repeat' with_reducible apply And.intro
    all_goals first | exact ready_of (by decide +kernel) | exact issues_of (by decide +kernel) |
      exact branch_ready_of (by decide +kernel) | exact muldiv_of (by decide +kernel) |
      exact owns_of (by decide +kernel) | exact plain_of (by decide +kernel) | exact tops_of (by decide +kernel) |
      exact mem_of (by decide +kernel) | exact clean_of (by decide +kernel) |
      exact unbuffered_of (by decide +kernel) | exact room_of (by decide +kernel) |
      exact serving_of (by decide +kernel) | exact sound_of (by decide +kernel) | exact accepts_of (by decide +kernel) |
      exact reads_of (by decide +kernel) | decide +kernel

/-- ERET with a store that waits for its answer; to no place, to a bank in a march, and to a frame with a bad word. -/
theorem witness_EretWaitsAndMeetsErrors :
    (let s := (leaving 1 []).modEng 3 (fun e => { e with sb := [sbe 0x20005000] })
     BranchReady s 3 1 1 [] [] 0 ∧ (s.eng 3).flights = [] ∧ (s.eng 3).effRing = 0 ∧ (s.eng 3).drained = false) ∧
    (let s := (leaving 1 []).modEng 3 (fun e => { e with arch := { e.arch with tsbp := 0x40000045 } })
     BranchReady s 3 1 1 [] [] 0 ∧ (s.eng 3).drained = true ∧
     framePlace 3 ((64 * pswGet (s.eng 3).arch.tsbp Bits.TSBP_FRAME + (2 ^ 32 - 64)) % 2 ^ 32) = none) ∧
    (let s := poisoned (leaving 1 (savedFrame 1 0x1030))
     BranchReady s 3 1 1 [] [] 0 ∧ (s.eng 3).drained = true ∧ s.memErr 0x10035000 = false ∧
     framePlace 3 ((64 * pswGet (s.eng 3).arch.tsbp Bits.TSBP_FRAME + (2 ^ 32 - 64)) % 2 ^ 32) = some 0x10035000 ∧
     s.codeStat (0x10035000 + 8 * 0) = .clean ∧ s.codeStat (0x10035000 + 8 * 1) = .bad) := by
    repeat' with_reducible apply And.intro
    all_goals first | exact ready_of (by decide +kernel) | exact issues_of (by decide +kernel) |
      exact branch_ready_of (by decide +kernel) | exact muldiv_of (by decide +kernel) |
      exact owns_of (by decide +kernel) | exact plain_of (by decide +kernel) | exact tops_of (by decide +kernel) |
      exact mem_of (by decide +kernel) | exact clean_of (by decide +kernel) |
      exact unbuffered_of (by decide +kernel) | exact room_of (by decide +kernel) |
      exact serving_of (by decide +kernel) | exact sound_of (by decide +kernel) | exact accepts_of (by decide +kernel) |
      exact reads_of (by decide +kernel) | decide +kernel

/-! ### Witnesses: figures, the caller and doorbells -/

def job (k : Nat) : FigJob :=
  { num := 0, dptr := 0, vl := 1, ring := 0, pr := [], eng := 0, fmt := 0, ticket := k }

/-- Engine 3 in ring `r` with a cell, figure 9 of its tile valid or not, for ring 1 and below, and `q` figures queued. -/
def figures (r v q : Nat) (d : Word) : State :=
  let s := putL (ring3 r [d])
    [(Adr.FIG_MAP 0 9, Bits.FIG_MAP_VALID, v), (Adr.FIG_MAP 0 9, Bits.FIG_MAP_RING, 1), (Adr.FIG_MAP 0 9, Bits.FIG_MAP_FMT, 2),
     (Adr.FIG_STAT 0, Bits.FIG_STAT_NEXT, 255)]
  s.setFigure 0 { s.figure 0 with queue := List.replicate q (job 7) }

/-- The ticket 23 with its status recorded, with a fault or without. -/
def ticketed (fault : Nat) : State :=
  let s := figures 0 1 0 23
  (s.setFigure 0 { s.figure 0 with valid := 0xFFFF }).put (Adr.FIG_TKSTAT 0 7) ⟨0, 32⟩ (23 + 2 ^ 29 * fault + 2 ^ 26)

/-- VL from a cell; a fenced unit, a figure that is not valid, a ring above its own, an unaligned descriptor, a full queue and
one with room for one; tickets 256, 7 (queued), 23 (not known) and 23 (known, with a fault and without). -/
theorem witness_FigureInstructions :
    (let s := figures 0 1 0 64
     OwnsExt s 3 ∧ (s.eng 3).flights = [] ∧ Ready s 3 1 [64] [] 1 0 ∧ Ready s 3 2 [64] [] 1 0 ∧ s.figFenced 0 = false ∧
     fldOf (s.reg (Adr.FIG_MAP 0 9)) Bits.FIG_MAP_VALID = 1 ∧
     (s.eng 3).effRing ≤ fldOf (s.reg (Adr.FIG_MAP 0 9)) Bits.FIG_MAP_RING ∧ (64 : Word).toNat % 64 = 0 ∧
     (s.eng 3).sb = [] ∧ (s.eng 3).waitResp = [] ∧ (s.figure 0).queue.length < 8 ∧ (s.figure 0).waiters = [] ∧
     s.get (Adr.FIG_FMT_COMMIT 0) cPending = 0) ∧
    (let s := figures 1 1 8 64
     OwnsExt s 3 ∧ (s.eng 3).flights = [] ∧ Ready s 3 2 [64] [] 1 0 ∧ s.figFenced 0 = false ∧
     (s.eng 3).effRing ≤ fldOf (s.reg (Adr.FIG_MAP 0 9)) Bits.FIG_MAP_RING ∧ 8 ≤ (s.figure 0).queue.length) ∧
    (let s := (figures 0 1 0 64).put Adr.FLT_FTILE ⟨16, 1⟩ 1
     Ready s 3 2 [64] [] 1 0 ∧ s.figFenced 0 = true) ∧
    (let s := figures 0 0 0 64
     Ready s 3 2 [64] [] 1 0 ∧ s.figFenced 0 = false ∧ fldOf (s.reg (Adr.FIG_MAP 0 9)) Bits.FIG_MAP_VALID = 0) ∧
    (let s := figures 2 1 0 64
     Ready s 3 2 [64] [] 1 0 ∧ fldOf (s.reg (Adr.FIG_MAP 0 9)) Bits.FIG_MAP_RING < (s.eng 3).effRing) ∧
    (let s := figures 0 1 0 63
     Ready s 3 2 [63] [] 1 0 ∧ s.figFenced 0 = false ∧ fldOf (s.reg (Adr.FIG_MAP 0 9)) Bits.FIG_MAP_VALID = 1 ∧
     (63 : Word).toNat % 64 ≠ 0) ∧
    (Ready (figures 0 1 0 256) 3 1 [256] [] 1 0 ∧ 256 ≤ (256 : Word).toNat) ∧
    (Ready (figures 0 1 1 7) 3 1 [7] [] 1 0 ∧ (figures 0 1 1 7).outstanding 0 7 = true) ∧
    (Ready (figures 0 1 0 23) 3 1 [23] [] 1 0 ∧ (figures 0 1 0 23).outstanding 0 23 = false ∧
     getBit ((figures 0 1 0 23).figure 0).valid 7 = false) ∧
    (let s := ticketed 0
     let st : Word := (s.reg (Adr.FIG_TKSTAT 0 7)).setWidth 32
     OwnsExt s 3 ∧ Ready s 3 1 [23] [] 1 0 ∧ s.outstanding 0 23 = false ∧ getBit (s.figure 0).valid 7 = true ∧
     (st.setWidth 8).toNat = 23 ∧ st.getLsbD 29 = false) ∧
    (let s := ticketed 1
     let st : Word := (s.reg (Adr.FIG_TKSTAT 0 7)).setWidth 32
     OwnsExt s 3 ∧ Ready s 3 1 [23] [] 1 0 ∧ s.outstanding 0 23 = false ∧ getBit (s.figure 0).valid 7 = true ∧
     (st.setWidth 8).toNat = 23 ∧ st.getLsbD 29 = true ∧ (s.eng 3).slot = none) := by
    repeat' with_reducible apply And.intro
    all_goals first | exact ready_of (by decide +kernel) | exact issues_of (by decide +kernel) |
      exact branch_ready_of (by decide +kernel) | exact muldiv_of (by decide +kernel) |
      exact owns_of (by decide +kernel) | exact plain_of (by decide +kernel) | exact tops_of (by decide +kernel) |
      exact mem_of (by decide +kernel) | exact clean_of (by decide +kernel) |
      exact unbuffered_of (by decide +kernel) | exact room_of (by decide +kernel) |
      exact serving_of (by decide +kernel) | exact sound_of (by decide +kernel) | exact accepts_of (by decide +kernel) |
      exact reads_of (by decide +kernel) | decide +kernel

/-- Context 9 of tile 0 in a STATE, and READY when it is. -/
def ctx9 (st : Nat) : State :=
  { (at3 [] []).put (Adr.CAL_CTX_CTL 0 9) Bits.CAL_CTX_CTL_STATE st with ready := [(0, if st = 2 then [7, 9] else [7])] }

/-- Every STATE of a context, the running one on an engine, and the three initiators of CAL_READY. -/
theorem witness_CallerCommands :
    Accepts (ctx9 0) .host .r0 0 0 (Adr.CAL_CMD 0) ∧ (ctx9 0).ctxState 0 9 = 0 ∧
    Accepts (ctx9 1) .debug .r0 0 0 (Adr.CAL_CMD 0) ∧ (ctx9 1).ctxState 0 9 = 1 ∧
    Accepts (ctx9 2) (.engine 3) .r0 0 0 (Adr.CAL_CMD 0) ∧ (ctx9 2).ctxState 0 9 = 2 ∧
    Accepts (ctx9 3) .host .r0 0 0 (Adr.CAL_CMD 0) ∧ (ctx9 3).ctxState 0 5 = 3 ∧
    (ctx9 3).engineOf 0 5 = some 3 ∧ Accepts (ctx9 4) .host .r0 0 0 (Adr.CAL_CMD 0) ∧ (ctx9 4).ctxState 0 9 = 4 ∧
    Accepts (ctx9 5) .host .r0 0 0 (Adr.CAL_CMD 0) ∧ (ctx9 5).ctxState 0 9 = 5 ∧
    Accepts (ctx9 0) .host .r2 0 0 (Adr.CAL_READY 0) ∧ Accepts (ctx9 0) .debug .r2 0 0 (Adr.CAL_READY 0) ∧
    Accepts (ctx9 0) (.engine 3) .r2 0 0 (Adr.CAL_READY 0) := by
    repeat' with_reducible apply And.intro
    all_goals first | exact ready_of (by decide +kernel) | exact issues_of (by decide +kernel) |
      exact branch_ready_of (by decide +kernel) | exact muldiv_of (by decide +kernel) |
      exact owns_of (by decide +kernel) | exact plain_of (by decide +kernel) | exact tops_of (by decide +kernel) |
      exact mem_of (by decide +kernel) | exact clean_of (by decide +kernel) |
      exact unbuffered_of (by decide +kernel) | exact room_of (by decide +kernel) |
      exact serving_of (by decide +kernel) | exact sound_of (by decide +kernel) | exact accepts_of (by decide +kernel) |
      exact reads_of (by decide +kernel) | decide +kernel

/-- Engine 3 parked (or not), its context 5 with `n` events, and context 9 READY with a PRIO. -/
def parked (h : Hold) (n p : Nat) (sw : Option Leave) (i : Idle) : State :=
  let s := putL (at3 [] []) [(Adr.CAL_CTX_EVENT 0 5, Bits.CAL_CTX_EVENT_EVCNT, n), (Adr.CAL_CTX_CTL 0 9, Bits.CAL_CTX_CTL_STATE, 2),
    (Adr.CAL_CTX_CTL 0 9, Bits.CAL_CTX_CTL_PRIO, p), (Adr.CAL_CTX_CTL 0 9, Bits.CAL_CTX_CTL_AFF, 0xFFFF),
    (Adr.CAL_CTX_CTL 0 5, Bits.CAL_CTX_CTL_PRIO, 3)]
  ({ s with ready := [(0, [9])] } : State).modEng 3 (fun e => { e with hold := h, switchTo := sw, idle := i })

/-- An engine without a context, with context 9 preloaded. -/
def preloaded : State :=
  (parked .none 0 7 none (.loaded 9 { pc := 0x444, psw := 0x3000007 })).put (Adr.CAL_ENG 0 3) Bits.CAL_ENG_PLACED 0

/-- The three operations with an event and without one, with a rival of equal PRIO and without one, both asked switches, and
the context coming on. -/
theorem witness_ContextsLeaveAndComeOn :
    (let s := parked (.park 0) 1 7 none .empty
     s.inService 3 = true ∧ (s.eng 3).hold = .park 0 ∧ 0 < s.get (Adr.CAL_CTX_EVENT 0 (s.ctxOf 3)) Bits.CAL_CTX_EVENT_EVCNT) ∧
    (let s := parked (.park 0) 0 7 none .empty
     s.inService 3 = true ∧ (s.eng 3).hold = .park 0 ∧ (s.eng 3).idle = .empty ∧ (s.eng 3).arrived = [] ∧
     (s.eng 3).switchTo = none ∧ s.get (Adr.CAL_CTX_EVENT 0 (s.ctxOf 3)) Bits.CAL_CTX_EVENT_EVCNT = 0) ∧
    (let s := parked (.park 1) 0 2 none .empty
     s.inService 3 = true ∧ (s.eng 3).hold = .park 1 ∧
     ∀ x ∈ s.readyList 0, ¬ (s.ctxPrio 0 (s.ctxOf 3) ≤ s.ctxPrio 0 x ∧ getBit (s.ctxAff 0 x) (engOf 3) = true)) ∧
    (let s := parked (.park 1) 0 3 none .empty
     s.inService 3 = true ∧ (s.eng 3).hold = .park 1 ∧ (s.eng 3).idle = .empty ∧ (s.eng 3).arrived = [] ∧
     (s.eng 3).switchTo = none ∧
     ∃ x ∈ s.readyList 0, s.ctxPrio 0 (s.ctxOf 3) ≤ s.ctxPrio 0 x ∧ getBit (s.ctxAff 0 x) (engOf 3) = true) ∧
    (let s := parked (.park 2) 0 3 none .empty
     s.inService 3 = true ∧ (s.eng 3).hold = .park 2 ∧ (s.eng 3).idle = .empty ∧ (s.eng 3).arrived = [] ∧
     (s.eng 3).switchTo = none) ∧
    (let s := parked .none 0 3 (some .held) .empty
     s.inService 3 = true ∧ (s.eng 3).idle = .empty ∧ (s.eng 3).arrived = [] ∧ s.placed 3 = true ∧ (s.eng 3).flights = [] ∧
     (s.eng 3).atSwitch = true ∧ (s.eng 3).switchTo = some .held) ∧
    (let s := parked .none 0 3 (some .free) .empty
     s.inService 3 = true ∧ (s.eng 3).idle = .empty ∧ s.placed 3 = true ∧ (s.eng 3).atSwitch = true ∧
     (s.eng 3).switchTo = some .free) ∧
    (preloaded.inService 3 = true ∧ (preloaded.eng 3).idle = .loaded 9 { pc := 0x444, psw := 0x3000007 } ∧ 9 < 512 ∧
     preloaded.placed 3 = false ∧ (preloaded.eng 3).flights = [] ∧ preloaded.ctxState 0 9 = 2) := by
    repeat' with_reducible apply And.intro
    all_goals first | exact ready_of (by decide +kernel) | exact issues_of (by decide +kernel) |
      exact branch_ready_of (by decide +kernel) | exact muldiv_of (by decide +kernel) |
      exact owns_of (by decide +kernel) | exact plain_of (by decide +kernel) | exact tops_of (by decide +kernel) |
      exact mem_of (by decide +kernel) | exact clean_of (by decide +kernel) |
      exact unbuffered_of (by decide +kernel) | exact room_of (by decide +kernel) |
      exact serving_of (by decide +kernel) | exact sound_of (by decide +kernel) | exact accepts_of (by decide +kernel) |
      exact reads_of (by decide +kernel) | decide +kernel

/-- Context 9 of tile 0 READY with a PRIO and an affinity; engines 3 and 4 run contexts of PRIO 2, all others are idle. -/
def placing (p aff : Nat) : State :=
  let s := putL (at3 [] []) [(Adr.CAL_ENG 0 4, Bits.CAL_ENG_PLACED, 1), (Adr.CAL_ENG 0 4, Bits.CAL_ENG_CTX, 6),
    (Adr.CAL_CTX_CTL 0 5, Bits.CAL_CTX_CTL_PRIO, 2), (Adr.CAL_CTX_CTL 0 6, Bits.CAL_CTX_CTL_PRIO, 2),
    (Adr.CAL_CTX_CTL 0 9, Bits.CAL_CTX_CTL_STATE, 2), (Adr.CAL_CTX_CTL 0 9, Bits.CAL_CTX_CTL_PRIO, p),
    (Adr.CAL_CTX_CTL 0 9, Bits.CAL_CTX_CTL_AFF, aff), (Adr.CAL_CTL 0, Bits.CAL_CTL_RUN, 0xFFFF)]
  { s with ready := [(0, [9])] }

/-- What `may` asks of an engine of tile 0 in the statement. -/
def mayRun (s : State) (i : Nat) : Prop := i < 16 ∧ getBit (s.ctxAff 0 9) i = true ∧
  getBit (s.get (Adr.CAL_CTL 0) Bits.CAL_CTL_RUN) i = true ∧ s.inService i = true ∧ s.drainsElsewhere 0 i 9 = false

/-- Engine 0 idle; and, with engines 3 and 4 alone in its affinity, a lower PRIO on the higher of two engines with equal
PRIO. -/
theorem witness_CallerPlacesAContext :
    (let s := placing 1 0xFFFF
     s.sleep 0 = 0 ∧ s.tileFenced 0 = false ∧ s.readyList 0 = [9] ∧ mayRun s 0 ∧ s.placed 0 = false) ∧
    (let s := placing 3 0x18
     s.sleep 0 = 0 ∧ s.tileFenced 0 = false ∧ s.readyList 0 = [9] ∧ mayRun s 3 ∧ s.placed 3 = true ∧ mayRun s 4 ∧
     s.placed 4 = true ∧ s.ctxPrio 0 (s.ctxOf 3) < s.ctxPrio 0 9 ∧ s.ctxPrio 0 (s.ctxOf 3) = s.ctxPrio 0 (s.ctxOf 4) ∧
     (∀ j, j < 16 → getBit (s.ctxAff 0 9) j = true → s.placed j = true) ∧ (s.eng 4).switchTo = none) := by
  unfold mayRun
  exact (by
    repeat' with_reducible apply And.intro
    all_goals first | exact ready_of (by decide +kernel) | exact issues_of (by decide +kernel) |
      exact branch_ready_of (by decide +kernel) | exact muldiv_of (by decide +kernel) |
      exact owns_of (by decide +kernel) | exact plain_of (by decide +kernel) | exact tops_of (by decide +kernel) |
      exact mem_of (by decide +kernel) | exact clean_of (by decide +kernel) |
      exact unbuffered_of (by decide +kernel) | exact room_of (by decide +kernel) |
      exact serving_of (by decide +kernel) | exact sound_of (by decide +kernel) | exact accepts_of (by decide +kernel) |
      exact reads_of (by decide +kernel) | decide +kernel)

/-- Context 9 on deck for engine 3, its frame at 0x5000 with ten data cells and two return cells. -/
def onDeck (i : Idle) : State :=
  let f : List Word := [0x444, 0x80000007, 0x1028, 0x3008]
  let s := putL (at3 [] []) [(Adr.CAL_CTX_CTL 0 9, Bits.CAL_CTX_CTL_STATE, 2), (Adr.CAL_ENG 0 3, Bits.CAL_ENG_DECKV, 1),
    (Adr.CAL_ENG 0 3, Bits.CAL_ENG_DECK, 9), (Adr.CAL_CTX_TSBP 0 9, ⟨0, 32⟩, 0x5003), (Adr.CAL_CTX_DSLIM 0 9, ⟨0, 32⟩, 0x10001FF8),
    (Adr.CAL_CTX_RSLIM 0 9, ⟨0, 32⟩, 0x30003FF8)]
  ({ s with mem := memWrite s.mem 0x10035000 (wordBytes f) } : State).modEng 3 (fun e => { e with idle := i })

/-- What an outgoing context with ten data cells leaves to be drained. -/
def drained7 : Arch :=
  { pc := 0x99, psw := 0x80000007, tsbp := 0x5045
    bank := { bank [] [5] with dsp := 0x1028, ds := cells [1, 2, 3, 4, 5, 6, 7, 8, 9, 10] } }

/-- A preload; a drain; and an extended state whose context runs elsewhere, with a save area and without one. -/
theorem witness_ContextsReadAndWritten :
    (let s := onDeck .empty
     Sound s ∧ s.inService 3 = true ∧ s.get (Adr.CAL_ENG 0 3) Bits.CAL_ENG_DECKV = 1 ∧
     s.get (Adr.CAL_ENG 0 3) Bits.CAL_ENG_DECK = 9 ∧ s.ctxState 0 9 = 2 ∧ (s.eng 3).idle = .empty ∧
     s.drainsElsewhere 0 3 9 = false ∧ s.ownedElsewhere 3 9 = false ∧
     framePlace 3 (pswGet ((s.reg (Adr.CAL_CTX_TSBP 0 9)).setWidth 32) Bits.TSBP_FRAME * 64) = some 0x10035000 ∧
     Clean s 0x10035000 16 ∧ memWords s 0x10035000 4 = [0x444, 0x80000007, 0x1028, 0x3008] ∧
     areaOk 0x1028 = true ∧ areaOk 0x3008 = true ∧ min 8 (stkDepth 0x1028 0x10001FF8) = 8 ∧
     min 4 (stkDepth 0x3008 0x30003FF8) = 2 ∧ Clean s (stkAdr 3 (cellForm 0x1028 0)) 4 ∧ Clean s (stkAdr 3 (cellForm 0x1028 7)) 4 ∧
     Clean s (stkAdr 3 (cellForm 0x3008 0)) 4 ∧ Clean s (stkAdr 3 (cellForm 0x3008 1)) 4) ∧
    (let s := onDeck (.draining 7 drained7)
     Sound s ∧ (s.eng 3).idle = .draining 7 drained7 ∧
     framePlace 3 (pswGet drained7.tsbp Bits.TSBP_FRAME * 64) = some 0x10035040 ∧ drained7.bank.ds.length ≤ 32 ∧
     4 * drained7.bank.ds.length ≤ spOff drained7.bank.dsp ∧
     areaOk (spMove drained7.bank.dsp (-(drained7.bank.ds.length : Int))) = true ∧
     s.writeFails (stkAdr 3 (spMove drained7.bank.dsp (-(drained7.bank.ds.length : Int)))) (4 * drained7.bank.ds.length) = false ∧
     drained7.bank.rs.length ≤ 16 ∧ 4 * drained7.bank.rs.length ≤ spOff drained7.bank.rsp ∧
     areaOk (spMove drained7.bank.rsp (-(drained7.bank.rs.length : Int))) = true ∧
     s.writeFails (stkAdr 3 (spMove drained7.bank.rsp (-(drained7.bank.rs.length : Int)))) (4 * drained7.bank.rs.length) = false ∧
     s.writeFails 0x10035040 16 = false ∧ s.writeFails (0x10035040 + 0x18) 20 = false ∧
     min 4 (stkDepth drained7.bank.dsp drained7.bank.dslim) ≤ drained7.bank.ds.length ∧
     (∀ y ∈ drained7.bank.ds.take 4, y.poison = false)) ∧
    (let s := putL (at3 [] []) [(Adr.CAL_ENG 0 4, Bits.CAL_ENG_PLACED, 1), (Adr.CAL_ENG 0 4, Bits.CAL_ENG_CTX, 5),
       (Adr.CAL_CTX_XSAVE 0 5, ⟨6, 26⟩, 0x8006000 / 64)]
     Sound s ∧ s.get (Adr.CAL_ENG 0 3) Bits.CAL_ENG_XOWNV = 1 ∧ s.get (Adr.CAL_ENG 0 3) Bits.CAL_ENG_XOWN = 5 ∧
     s.placedElsewhere 3 5 = true ∧ s.saveArea 3 5 = some 0x10806000 ∧ s.writeFails 0x10806000 48 = false ∧
     (∀ i, i < 48 → inChannels (0x10806000 + i) = false)) ∧
    (let s := putL (at3 [] []) [(Adr.CAL_ENG 0 4, Bits.CAL_ENG_PLACED, 1), (Adr.CAL_ENG 0 4, Bits.CAL_ENG_CTX, 5),
       (Adr.CAL_CTX_XSAVE 0 5, ⟨6, 26⟩, 0x6000)]
     Sound s ∧ s.get (Adr.CAL_ENG 0 3) Bits.CAL_ENG_XOWNV = 1 ∧ s.get (Adr.CAL_ENG 0 3) Bits.CAL_ENG_XOWN = 5 ∧
     s.placedElsewhere 3 5 = true ∧ s.saveArea 3 5 = none) := by
    repeat' with_reducible apply And.intro
    all_goals first | exact ready_of (by decide +kernel) | exact issues_of (by decide +kernel) |
      exact branch_ready_of (by decide +kernel) | exact muldiv_of (by decide +kernel) |
      exact owns_of (by decide +kernel) | exact plain_of (by decide +kernel) | exact tops_of (by decide +kernel) |
      exact mem_of (by decide +kernel) | exact clean_of (by decide +kernel) |
      exact unbuffered_of (by decide +kernel) | exact room_of (by decide +kernel) |
      exact serving_of (by decide +kernel) | exact sound_of (by decide +kernel) | exact accepts_of (by decide +kernel) |
      exact reads_of (by decide +kernel) | decide +kernel

/-! ### Witnesses: figures and contexts, the other paths -/

/-- A queue full with an engine stalled ahead, and a place kept for it: seven figures queued and engine 2 waiting in FIG. -/
theorem witness_FigWaitsBehindAStalledEngine :
    (let s := figures 0 1 7 64
     let s := s.modEng 2 (fun e => { e with arch := { e.arch with pc := 0x44 } })
     let s := (putL s [(Adr.CAL_ENG 0 2, Bits.CAL_ENG_PLACED, 1), (Adr.CAL_ENG 0 2, Bits.CAL_ENG_CTX, 6)]).setFigure 0
       { s.figure 0 with waiters := [(2, 6, 0x44)] }
     OwnsExt s 3 ∧ Ready s 3 2 [64] [] 1 0 ∧ s.figStalled 0 = [2] ∧
     8 ≤ (s.figure 0).queue.length + ((s.figStalled 0).takeWhile (fun y => y != engOf 3)).length) := by
    repeat' with_reducible apply And.intro
    all_goals first | exact ready_of (by decide +kernel) | exact issues_of (by decide +kernel) |
      exact branch_ready_of (by decide +kernel) | exact muldiv_of (by decide +kernel) |
      exact owns_of (by decide +kernel) | exact plain_of (by decide +kernel) | exact tops_of (by decide +kernel) |
      exact mem_of (by decide +kernel) | exact clean_of (by decide +kernel) |
      exact unbuffered_of (by decide +kernel) | exact room_of (by decide +kernel) |
      exact serving_of (by decide +kernel) | exact sound_of (by decide +kernel) | exact accepts_of (by decide +kernel) |
      exact reads_of (by decide +kernel) | decide +kernel

/-- CAL_LOAD to CAL_FREE of context 0. -/
theorem witness_CallerRefusesContextZero :
    Accepts (ctx9 0) .host .r0 0 0 (Adr.CAL_CMD 0) ∧ ((0 : Fin 512).val = 0) ∧ ((9 : Fin 512).val ≠ 0) := by
    repeat' with_reducible apply And.intro
    all_goals first | exact ready_of (by decide +kernel) | exact issues_of (by decide +kernel) |
      exact branch_ready_of (by decide +kernel) | exact muldiv_of (by decide +kernel) |
      exact owns_of (by decide +kernel) | exact plain_of (by decide +kernel) | exact tops_of (by decide +kernel) |
      exact mem_of (by decide +kernel) | exact clean_of (by decide +kernel) |
      exact unbuffered_of (by decide +kernel) | exact room_of (by decide +kernel) |
      exact serving_of (by decide +kernel) | exact sound_of (by decide +kernel) | exact accepts_of (by decide +kernel) |
      exact reads_of (by decide +kernel) | decide +kernel

/-- A park that meets a HOLD, and one that meets a FREE; a switch that meets a deferred bus error, and one that meets an
interrupt; and the head of the ready queue taking the engine. -/
theorem witness_ContextsLeaveWhenAsked :
    (let s := parked (.park 0) 0 7 (some .held) .empty
     s.inService 3 = true ∧ (s.eng 3).hold = .park 0 ∧ (s.eng 3).idle = .empty ∧ (s.eng 3).switchTo = some .held ∧
     s.get (Adr.CAL_CTX_EVENT 0 (s.ctxOf 3)) Bits.CAL_CTX_EVENT_EVCNT = 0) ∧
    (let s := parked (.park 2) 0 7 (some .free) .empty
     (s.eng 3).hold = .park 2 ∧ (s.eng 3).arrived = [] ∧ (s.eng 3).switchTo = some .free) ∧
    (let s := parked .none 0 7 (some .held) .empty
     s.placed 3 = true ∧ (s.eng 3).atSwitch = true ∧ s.recognisable 3 (0 < (s.eng 3).firm) = none) ∧
    (let s := (parked .none 0 7 (some .held) .empty).modEng 3 (fun e => { e with arrived := [⟨7, 5⟩] })
     s.placed 3 = true ∧ (s.eng 3).flights = [] ∧ (s.eng 3).atSwitch = true ∧ (s.eng 3).arrived = ⟨7, 5⟩ :: []) ∧
    (let s := (rung 1).modEng 3 (fun e => { e with switchTo := some .held })
     s.inService 3 = true ∧ s.placed 3 = true ∧ (s.eng 3).atSwitch = true ∧ (s.eng 3).arrived = [] ∧
     s.recognisable 3 (0 < (s.eng 3).firm) = some 2) ∧
    (let a : Arch := { pc := 0x444, psw := 0x3000007 }
     let s := putL (parked .none 0 7 (some .head) (.loaded 9 a)) [(Adr.CAL_CTX_CTL 0 9, Bits.CAL_CTX_CTL_AFF, 8),
       (Adr.CAL_CTL 0, Bits.CAL_CTL_RUN, 0xFFFF)]
     s.inService 3 = true ∧ s.placed 3 = true ∧ (s.eng 3).atSwitch = true ∧ (s.eng 3).arrived = [] ∧
     s.recognisable 3 (0 < (s.eng 3).firm) = none ∧ (s.eng 3).switchTo = some .head ∧ (s.eng 3).idle = .loaded 9 a ∧
     s.ctxOf 3 = 5 ∧ s.placedNext 3 9 = true ∧ s.readyList 0 = [9]) ∧
    (let s := putL preloaded [(Adr.CAL_CTX_CTL 0 9, Bits.CAL_CTX_CTL_AFF, 8), (Adr.CAL_CTL 0, Bits.CAL_CTL_RUN, 0xFFFF)]
     s.placedNext 3 9 = true ∧ ∀ i, i < 16 → i ≠ engOf 3 → (s.eng i).idle = .empty) := by
    repeat' with_reducible apply And.intro
    all_goals first | exact ready_of (by decide +kernel) | exact issues_of (by decide +kernel) |
      exact branch_ready_of (by decide +kernel) | exact muldiv_of (by decide +kernel) |
      exact owns_of (by decide +kernel) | exact plain_of (by decide +kernel) | exact tops_of (by decide +kernel) |
      exact mem_of (by decide +kernel) | exact clean_of (by decide +kernel) |
      exact unbuffered_of (by decide +kernel) | exact room_of (by decide +kernel) |
      exact serving_of (by decide +kernel) | exact sound_of (by decide +kernel) | exact accepts_of (by decide +kernel) |
      exact reads_of (by decide +kernel) | decide +kernel

/-- Contexts of equal PRIO everywhere, so that nothing is placed: engine 3 of the affinity is on deck, and engine 5 is not. -/
theorem witness_CallerKeepsADeck :
    (let s := placing 2 0x18
     s.sleep 0 = 0 ∧ s.tileFenced 0 = false ∧ s.readyList 0 = [9] ∧ mayRun s 3 ∧ mayRun s 4 ∧ s.placed 3 = true ∧
     s.placed 4 = true ∧ ¬ s.ctxPrio 0 (s.ctxOf 3) < s.ctxPrio 0 9 ∧ ¬ s.ctxPrio 0 (s.ctxOf 4) < s.ctxPrio 0 9 ∧
     getBit (s.ctxAff 0 9) 5 = false) := by
  unfold mayRun
  exact (by
    repeat' with_reducible apply And.intro
    all_goals first | exact ready_of (by decide +kernel) | exact issues_of (by decide +kernel) |
      exact branch_ready_of (by decide +kernel) | exact muldiv_of (by decide +kernel) |
      exact owns_of (by decide +kernel) | exact plain_of (by decide +kernel) | exact tops_of (by decide +kernel) |
      exact mem_of (by decide +kernel) | exact clean_of (by decide +kernel) |
      exact unbuffered_of (by decide +kernel) | exact room_of (by decide +kernel) |
      exact serving_of (by decide +kernel) | exact sound_of (by decide +kernel) | exact accepts_of (by decide +kernel) |
      exact reads_of (by decide +kernel) | decide +kernel)

/-- A frame at 0x40000000, of a preload and of a drain; and a save area whose words are uncorrectable. -/
theorem witness_ContextsAreLost :
    (let s := (onDeck .empty).put (Adr.CAL_CTX_TSBP 0 9) ⟨0, 32⟩ 0x40000003
     Sound s ∧ s.inService 3 = true ∧ s.get (Adr.CAL_ENG 0 3) Bits.CAL_ENG_DECK = 9 ∧ s.ctxState 0 9 = 2 ∧
     s.drainsElsewhere 0 3 9 = false ∧ s.ownedElsewhere 3 9 = false ∧
     framePlace 3 (pswGet ((s.reg (Adr.CAL_CTX_TSBP 0 9)).setWidth 32) Bits.TSBP_FRAME * 64) = none) ∧
    (let a : Arch := { drained7 with tsbp := 0x40000045 }
     let s := onDeck (.draining 7 a)
     (s.eng 3).idle = .draining 7 a ∧ framePlace 3 (pswGet a.tsbp Bits.TSBP_FRAME * 64) = none ∧ s.ctxState 0 7 ≠ 2) ∧
    (let s := putL (at3 [] []) [(Adr.CAL_ENG 0 4, Bits.CAL_ENG_PLACED, 1), (Adr.CAL_ENG 0 4, Bits.CAL_ENG_CTX, 5),
       (Adr.CAL_CTX_XSAVE 0 5, ⟨6, 26⟩, 0x20500000 / 64)]
     let s : State := { s with marks := [(0x20500000, { poison := true }), (0x20500008, { poison := true })] }
     Sound s ∧ s.placedElsewhere 3 5 = true ∧ s.saveArea 3 5 = some 0x20500000 ∧ s.writeFails 0x20500000 48 = true) := by
    repeat' with_reducible apply And.intro
    all_goals first | exact ready_of (by decide +kernel) | exact issues_of (by decide +kernel) |
      exact branch_ready_of (by decide +kernel) | exact muldiv_of (by decide +kernel) |
      exact owns_of (by decide +kernel) | exact plain_of (by decide +kernel) | exact tops_of (by decide +kernel) |
      exact mem_of (by decide +kernel) | exact clean_of (by decide +kernel) |
      exact unbuffered_of (by decide +kernel) | exact room_of (by decide +kernel) |
      exact serving_of (by decide +kernel) | exact sound_of (by decide +kernel) | exact accepts_of (by decide +kernel) |
      exact reads_of (by decide +kernel) | decide +kernel

/-- Doorbell `n` with its descriptor's EN, WRING, REMOTE, MODE and tile, pending there or not, in a mode of the block. -/
def bell (m n en wring remote mode home p : Nat) : State :=
  putL (at3 [] []) [(Adr.BLK_MODE, Bits.BLK_MODE_MODE, m), (Adr.BLK_DBDESC n, Bits.BLK_DBDESC_EN, en),
    (Adr.BLK_DBDESC n, Bits.BLK_DBDESC_WRING, wring), (Adr.BLK_DBDESC n, Bits.BLK_DBDESC_REMOTE, remote),
    (Adr.BLK_DBDESC n, Bits.BLK_DBDESC_MODE, mode), (Adr.BLK_DBDESC n, Bits.BLK_DBDESC_TILE, home),
    (Adr.BLK_DBDESC n, Bits.BLK_DBDESC_MASK, 0xFFFF), (Adr.TIL_PEND home (n / 64), ⟨n % 64, 1⟩, p)]

def ringing (s : State) (n : Nat) (b : Ringer) : State := { s with rings := [⟨n, b, none⟩, ⟨7, .host, none⟩] }

/-- The field of a doorbell's descriptor. -/
def desc (s : State) (n : Nat) (f : Fld) : Nat := fldOf (s.reg (Adr.BLK_DBDESC n)) f

/-- Rings on both ways, and at the doorbell unit: 0xFFF, a reserved source (1,023) from the host, an engine's ring above
WRING, a letter to 1,023 and to a source without REMOTE, a source that is not enabled, one whose tile is in Off and one whose
tile is fenced, one of each MODE; claims by the host, the debug master and engines; writes of descriptor 0xFFF, to tile 12 and
to tile 11, of a source that does not pend and of one that does, with each MODE. -/
theorem witness_DoorbellsRingPendAndAreClaimed :
    Accepts (at3 [] []) .host .all 0 0 Adr.BLK_DOORBELL ∧ Accepts (at3 [] []) .host .all 0 0 (Adr.TIL_DOORBELL 0) ∧
    Accepts (at3 [] []) .debug .all 0 0 (Adr.TIL_DOORBELL 0) ∧
    (let s := bell 4 1024 1 0 0 0 0 1
     Accepts s (.engine 3) .all 0 0 (Adr.TIL_DOORBELL 0) ∧ tileOf 3 = 0 ∧ (0x1400 : Word).toNat % 4096 = 1024 ∧
     desc s 1024 Bits.BLK_DBDESC_TILE = 0 ∧ (s.eng 3).effRing ≤ desc s 1024 Bits.BLK_DBDESC_WRING ∧
     desc s 1024 Bits.BLK_DBDESC_EN = 1 ∧ desc s 1024 Bits.BLK_DBDESC_MODE = 0) ∧
    (ringing (bell 4 0xFFE 1 0 0 0 2 0) 0xFFF .host).rings = ⟨0xFFF, .host, none⟩ :: [⟨7, .host, none⟩] ∧
    (let s := ringing (bell 4 1023 1 0 0 0 2 0) 1023 .host
     s.mode ≤ 4 ∧ s.mode ≠ 1 ∧ s.mode ≠ 2 ∧ s.rings = ⟨1023, .host, none⟩ :: [⟨7, .host, none⟩]) ∧
    (let s := ringing (bell 1 1024 1 1 0 0 2 0) 1024 (.engine 3 2)
     s.mode ≤ 4 ∧ s.rings = ⟨1024, .engine 3 2, none⟩ :: [⟨7, .host, none⟩] ∧ desc s 1024 Bits.BLK_DBDESC_WRING < 2) ∧
    (let s := ringing (bell 1 1024 1 1 0 0 2 0) 1024 .letter
     s.mode ≤ 4 ∧ s.rings = ⟨1024, .letter, none⟩ :: [⟨7, .host, none⟩] ∧ desc s 1024 Bits.BLK_DBDESC_REMOTE = 0) ∧
    (ringing (bell 1 1023 1 1 1 0 2 0) 1023 .letter).rings = ⟨1023, .letter, none⟩ :: [⟨7, .host, none⟩] ∧
    (let s := ringing (bell 1 1024 0 2 1 0 2 0) 1024 (.engine 3 2)
     s.mode = 1 ∧ 2 ≤ desc s 1024 Bits.BLK_DBDESC_WRING ∧ desc s 1024 Bits.BLK_DBDESC_EN = 0) ∧
    (let s := (ringing (bell 1 5 1 0 0 0 2 0) 5 .hw).put (Adr.MRG_TSTAT 2) Bits.MRG_TSTAT_SLEEP 3
     desc s 5 Bits.BLK_DBDESC_EN = 1 ∧ s.sleep (desc s 5 Bits.BLK_DBDESC_TILE) = 3) ∧
    (let s := (ringing (bell 1 5 1 0 0 0 2 0) 5 .hw).put Adr.FLT_FTILE ⟨2, 1⟩ 1
     desc s 5 Bits.BLK_DBDESC_EN = 1 ∧ s.tileFenced (desc s 5 Bits.BLK_DBDESC_TILE) = true) ∧
    (let s := (ringing (bell 1 1024 1 0 1 0 2 1) 1024 .letter).put (Adr.MRG_TSTAT 2) Bits.MRG_TSTAT_SLEEP 2
     desc s 1024 Bits.BLK_DBDESC_REMOTE = 1 ∧ desc s 1024 Bits.BLK_DBDESC_EN = 1 ∧ s.sleep 2 = 2 ∧ s.tileFenced 2 = false ∧
     desc s 1024 Bits.BLK_DBDESC_MODE = 0) ∧
    (let s := ringing (bell 1 1024 1 0 1 1 2 0) 1024 .host
     desc s 1024 Bits.BLK_DBDESC_EN = 1 ∧ s.sleep 2 = 0 ∧ s.tileFenced 2 = false ∧ desc s 1024 Bits.BLK_DBDESC_MODE = 1) ∧
    Reads (at3 [] []) .host (Adr.TIL_CLAIM 0 5) ∧ Reads (at3 [] []) .debug (Adr.TIL_CLAIM 0 5) ∧
    Reads (at3 [] []) (.engine 3) (Adr.TIL_CLAIM 0 5) ∧ (at3 [] []).pendBit 0 5 = false ∧
    (let s := bell 1 5 1 0 0 0 0 1
     Reads s (.engine 3) (Adr.TIL_CLAIM 0 5) ∧ s.pendBit 0 5 = true ∧
     getBit (desc s 5 Bits.BLK_DBDESC_MASK) (engOf 3) = true) ∧
    Accepts (at3 [] []) .host .r0 0 0 (Adr.BLK_DBDESC 0xFFF) ∧
    fldOf (putFld 0 Bits.BLK_DBDESC_TILE 12) Bits.BLK_DBDESC_TILE = 12 ∧
    (let s := bell 1 5 1 0 0 0 2 0
     Accepts s .host .r0 0 0 (Adr.BLK_DBDESC 5) ∧ desc s 5 Bits.BLK_DBDESC_TILE = 2 ∧ s.pendBit 2 5 = false) ∧
    (let s := bell 1 5 1 0 0 0 2 1
     let w := putFld 0 Bits.BLK_DBDESC_TILE 11
     Accepts s .host .r0 0 0 (Adr.BLK_DBDESC 5) ∧ s.pendBit 2 5 = true ∧ fldOf w Bits.BLK_DBDESC_MODE = 0 ∧
     fldOf w Bits.BLK_DBDESC_TILE = 11) ∧
    (let s := (bell 1 5 1 0 0 0 2 1).put (Adr.CAL_CTX_CTL 11 33) Bits.CAL_CTX_CTL_STATE 1
     let w := putFld (putFld (putFld 0 Bits.BLK_DBDESC_TILE 11) Bits.BLK_DBDESC_MODE 1) Bits.BLK_DBDESC_CTX 33
     Accepts s .host .r0 0 0 (Adr.BLK_DBDESC 5) ∧ s.pendBit 2 5 = true ∧ fldOf w Bits.BLK_DBDESC_MODE = 1 ∧ s.sleep 11 = 0 ∧
     s.tileFenced 11 = false ∧ s.ctxState 11 (fldOf w Bits.BLK_DBDESC_CTX) = 1) := by
    repeat' with_reducible apply And.intro
    all_goals first | exact ready_of (by decide +kernel) | exact issues_of (by decide +kernel) |
      exact branch_ready_of (by decide +kernel) | exact muldiv_of (by decide +kernel) |
      exact owns_of (by decide +kernel) | exact plain_of (by decide +kernel) | exact tops_of (by decide +kernel) |
      exact mem_of (by decide +kernel) | exact clean_of (by decide +kernel) |
      exact unbuffered_of (by decide +kernel) | exact room_of (by decide +kernel) |
      exact serving_of (by decide +kernel) | exact sound_of (by decide +kernel) | exact accepts_of (by decide +kernel) |
      exact reads_of (by decide +kernel) | decide +kernel

/-! ### Witnesses: angle, time, modes -/

/-- Encoder 1 of a type, with CPR 4, ZEN and the levels of A and B. -/
def encoder (ty still : Nat) (a b : Bool) (f : Option (Bool × Nat)) : State :=
  let s := putL run [(Adr.ANG_CFG 1, Bits.ANG_CFG_TYPE, ty), (Adr.ANG_CFG 1, Bits.ANG_CFG_ZEN, 1),
    (Adr.ANG_CFG 1, Bits.ANG_CFG_ZQUAL, 1), (Adr.ANG_CPR 1, Bits.ANG_CPR_CPR, 4), (Adr.ANG_SSI 1, Bits.ANG_SSI_MT, 12),
    (Adr.ANG_SSI 1, Bits.ANG_SSI_BITS, 13), (Adr.ANG_STILLT 1, Bits.ANG_STILLT_STILLT, still),
    (Adr.ANG_STAT 1, Bits.ANG_STAT_STILL, 0)]
  s.setEnc 1 { s.enc 1 with a := a, b := b, frame := f }

/-- A quadrature count forwards, a double change, a qualified index, a frame with its data line high and with it low, and a
standstill. -/
theorem witness_EncodersCountAndIndex :
    (let s := encoder 0 5 true true none
     fldOf (s.reg (Adr.ANG_CFG 1)) Bits.ANG_CFG_TYPE = 0 ∧ (s.enc 1).z = false ∧ (false != (s.enc 1).a) ≠ (true != (s.enc 1).b) ∧
     (s.enc 1).zcond = false ∧ fldOf (s.reg (Adr.ANG_CFG 1)) Bits.ANG_CFG_ZEN = 1 ∧
     fldOf (s.reg (Adr.ANG_CFG 1)) Bits.ANG_CFG_FILT + 1 ≤ (1 : BitVec 8).toNat ∧
     ¬ fldOf (s.reg (Adr.ANG_CFG 1)) Bits.ANG_CFG_FILT + 1 ≤ (0 : BitVec 8).toNat ∧
     s.get (Adr.ANG_CPR 1) Bits.ANG_CPR_CPR = 4 ∧ (s.enc 1).a = true ∧ (s.enc 1).b = true ∧
     s.get (Adr.ANG_STILLT 1) Bits.ANG_STILLT_STILLT ≠ 0 ∧ s.still 1 = false ∧ fldOf (s.reg (Adr.ANG_CFG 1)) Bits.ANG_CFG_TYPE ≠ 3) ∧
    (let s := encoder 1 5 true true (some (true, 7))
     fldOf (s.reg (Adr.ANG_CFG 1)) Bits.ANG_CFG_TYPE = 1 ∧ (s.enc 1).frame = some (true, 7) ∧
     fldOf (s.reg (Adr.ANG_SSI 1)) Bits.ANG_SSI_PAR = 0 ∧ fldOf (s.reg (Adr.ANG_SSI 1)) Bits.ANG_SSI_GRAY = 0 ∧
     fldOf (s.reg (Adr.ANG_SSI 1)) Bits.ANG_SSI_MT ≠ 0) ∧
    (let s := encoder 1 5 true true (some (false, 7))
     fldOf (s.reg (Adr.ANG_CFG 1)) Bits.ANG_CFG_TYPE = 1 ∧ (s.enc 1).frame = some (false, 7)) := by
    repeat' with_reducible apply And.intro
    all_goals first | exact ready_of (by decide +kernel) | exact issues_of (by decide +kernel) |
      exact branch_ready_of (by decide +kernel) | exact muldiv_of (by decide +kernel) |
      exact owns_of (by decide +kernel) | exact plain_of (by decide +kernel) | exact tops_of (by decide +kernel) |
      exact mem_of (by decide +kernel) | exact clean_of (by decide +kernel) |
      exact unbuffered_of (by decide +kernel) | exact room_of (by decide +kernel) |
      exact serving_of (by decide +kernel) | exact sound_of (by decide +kernel) | exact accepts_of (by decide +kernel) |
      exact reads_of (by decide +kernel) | decide +kernel

/-- Comparator 3 of tile 1 at 1,000 on encoder 1, which the bus is about to pass upwards. -/
def comparing : State :=
  let s := putL (at3 [] []) [(Adr.ANG_CMP_CTL 1 3, Bits.ANG_CMP_CTL_EN, 1), (Adr.ANG_CMP_CTL 1 3, Bits.ANG_CMP_CTL_SRC, 1),
    (Adr.ANG_CMP_VAL 1 3, ⟨0, 32⟩, 1000), (Adr.ANG_CMP_STAT 1 3, Bits.ANG_CMP_STAT_FIRED, 1),
    (Adr.ANG_PWCNT 1, Bits.ANG_PWCNT_FALSE, 0xFFFE)]
  let s := s.setEnc 1 { s.enc 1 with base := 1000 * 4096, last := none }
  { s.setPower 1 { s.power 1 with pwake := some 5 } with bus := [(1, 999)] }

/-- One comparator fires and another does not; CPR is written for the first time and once more. -/
theorem witness_ComparatorsFire :
    (let s := comparing
     s.standby = false ∧ fldOf (s.reg (Adr.ANG_CMP_CTL 1 3)) Bits.ANG_CMP_CTL_EN = 1 ∧ s.sleep 1 ≠ 3 ∧ s.tileFenced 1 = false ∧
     fldOf (s.reg (Adr.ANG_CMP_CTL 1 3)) Bits.ANG_CMP_CTL_MODE = 0 ∧ fldOf (s.reg (Adr.ANG_CMP_CTL 1 3)) Bits.ANG_CMP_CTL_DIR = 0 ∧
     ¬ (mget (mget 0 s.bus 1) s.rebased 19 + 2 ^ 32 - 1000) % 2 ^ 32 < 2 ^ 31 ∧
     nextB .angleUpdate s (fun u => u.angle 1 == 1000) = true ∧ s.get (Adr.ANG_CMP_STAT 1 3) Bits.ANG_CMP_STAT_FIRED = 1 ∧
     fldOf (s.reg (Adr.ANG_CMP_CTL 1 3)) Bits.ANG_CMP_CTL_ACTION = 0 ∧
     fldOf (s.reg (Adr.ANG_CMP_CTL 1 4)) Bits.ANG_CMP_CTL_EN ≠ 1 ∧
     (s.power 1).pwake = some 5 ∧ s.get (Adr.ANG_PWCNT 1) Bits.ANG_PWCNT_FALSE < 0xFFFF ∧
     Accepts s .host .r0 0 0 (Adr.ANG_CPR 1) ∧ (s.reg (Adr.ANG_CPR 1)).toNat < 2 ^ 21 ∧ 4 ≤ (4 : Word).toNat ∧
     (0x100000 : Word).toNat ≤ 0x100000 ∧ (s.enc 1).cprSet = false ∧ s.encType 1 = 0 ∧
     s.get (Adr.ANG_STAT 1) Bits.ANG_STAT_HOMED = 0 ∧ Accepts s .host .r1 1 0 (Adr.ANG_CMP_CTL 1 3 + 4 * 0) ∧
     Accepts s .host .r1 1 0 (Adr.ANG_CMP_CTL 1 3 + 4 * 2) ∧ Accepts s .host .r1 1 0 (Adr.ANG_CMP_CTL 1 3 + 4 * 3)) ∧
    (let s := comparing.setEnc 1 { comparing.enc 1 with cprSet := true }
     Accepts s .host .r0 0 0 (Adr.ANG_CPR 1) ∧ (s.enc 1).cprSet = true) := by
    repeat' with_reducible apply And.intro
    all_goals first | exact ready_of (by decide +kernel) | exact issues_of (by decide +kernel) |
      exact branch_ready_of (by decide +kernel) | exact muldiv_of (by decide +kernel) |
      exact owns_of (by decide +kernel) | exact plain_of (by decide +kernel) | exact tops_of (by decide +kernel) |
      exact mem_of (by decide +kernel) | exact clean_of (by decide +kernel) |
      exact unbuffered_of (by decide +kernel) | exact room_of (by decide +kernel) |
      exact serving_of (by decide +kernel) | exact sound_of (by decide +kernel) | exact accepts_of (by decide +kernel) |
      exact reads_of (by decide +kernel) | decide +kernel

/-- A block that follows time by port 1, or leads it, in a mode. -/
def timing (m role : Nat) (st : Bool) : State :=
  let s := putL run [(Adr.BLK_MODE, Bits.BLK_MODE_MODE, m), (Adr.ANG_BCCTL, Bits.ANG_BCCTL_ROLE, role),
    (Adr.RLY_TIME, Bits.RLY_TIME_FWD, 5), (Adr.RLY_TIME, Bits.RLY_TIME_INEN, 1), (Adr.RLY_TIME, Bits.RLY_TIME_INPORT, 1),
    (Adr.RLY_LAT 1, Bits.RLY_LAT_LAT, 160), (Adr.RLY_CRED 1, Bits.RLY_CRED_UFREE, 3), (Adr.RLY_CRED 1, Bits.RLY_CRED_BFREE, 3),
    (Adr.RLY_PSTAT 0, Bits.RLY_PSTAT_STATE, 3), (Adr.RLY_PSTAT 1, Bits.RLY_PSTAT_STATE, 3), (Adr.ANG_CFG 2, Bits.ANG_CFG_TYPE, 2)]
  { s with stepTime := st, poreset := false }

def timeLetter : Letter :=
  { kind := 4, dest := 0, src := 7, urg := true, hops := 0
    payload := leBytes 8 100000 ++ List.replicate 32 1 ++ leBytes 4 20 ++ leBytes 4 0 }

/-- Modes 2 and 3; a leader with port 0 forwarding and port 1 not; a follower that steps and one that follows. -/
theorem witness_SystemTimeCountsAndFollows :
    (let s := timing 2 0 false
     Accepts s .host .r0 0 0 Adr.ANG_TIMESET ∧ s.mode ≤ 2 ∧ s.poreset = false) ∧
    (let s := timing 3 0 false
     Accepts s .host .r0 0 0 Adr.ANG_TIMESET ∧ s.mode = 3) ∧
    (let s := timing 4 1 false
     s.get Adr.ANG_BCCTL Bits.ANG_BCCTL_ROLE = 1 ∧ s.standby = false ∧ s.rlyState 0 = 3 ∧ s.rlyState 1 = 3 ∧
     getBit (s.get Adr.RLY_TIME Bits.RLY_TIME_FWD) 0 = true ∧ getBit (s.get Adr.RLY_TIME Bits.RLY_TIME_FWD) 1 = false) ∧
    (let s := timing 2 2 true
     s.rlyState 1 = 3 ∧ 0 < s.get (Adr.RLY_CRED 1) (freeFld (frameUrgent timeLetter.frame)) ∧
     parseLetter timeLetter.frame = some timeLetter ∧ timeLetter.kind = 4 ∧
     fldOf (s.reg Adr.RLY_TIME) Bits.RLY_TIME_INEN = 1 ∧ fldOf (s.reg Adr.RLY_TIME) Bits.RLY_TIME_INPORT = 1 ∧
     s.get Adr.ANG_BCCTL Bits.ANG_BCCTL_ROLE = 2 ∧ s.get (Adr.RLY_LAT 1) Bits.RLY_LAT_LAT % 16 = 0 ∧ s.stepTime = true ∧
     s.mode ≤ 2 ∧ s.encType 2 = 2) ∧
    (let s := timing 3 2 true
     s.rlyState 1 = 3 ∧ 0 < s.get (Adr.RLY_CRED 1) (freeFld (frameUrgent timeLetter.frame)) ∧ 3 ≤ s.mode) := by
    repeat' with_reducible apply And.intro
    all_goals first | exact ready_of (by decide +kernel) | exact issues_of (by decide +kernel) |
      exact branch_ready_of (by decide +kernel) | exact muldiv_of (by decide +kernel) |
      exact owns_of (by decide +kernel) | exact plain_of (by decide +kernel) | exact tops_of (by decide +kernel) |
      exact mem_of (by decide +kernel) | exact clean_of (by decide +kernel) |
      exact unbuffered_of (by decide +kernel) | exact room_of (by decide +kernel) |
      exact serving_of (by decide +kernel) | exact sound_of (by decide +kernel) | exact accepts_of (by decide +kernel) |
      exact reads_of (by decide +kernel) | decide +kernel

/-- The block in a mode, fatal or not, with the encoders 0 and 1 of STILLMASK at standstill or not. -/
def moding (m fatal still : Nat) : State :=
  let s := putL (at3 [] []) [(Adr.BLK_MODE, Bits.BLK_MODE_MODE, m), (Adr.ANG_CTL, Bits.ANG_CTL_STILLMASK, 3),
    (Adr.ANG_STAT 0, Bits.ANG_STAT_STILL, still), (Adr.ANG_STAT 1, Bits.ANG_STAT_STILL, still),
    (Adr.BLK_MODE, Bits.BLK_MODE_FATAL, fatal), (Adr.MRG_TSTAT 3, Bits.MRG_TSTAT_WORN, 1)]
  { s with plls := 7, poreset := false }

/-- With the shadow of tile 3's margin pair at `vt` and `n`, and a group's GO pending or not. -/
def pairing (c : Group) (pend vt n rt : Nat) : State :=
  let s := (moding 4 0 0).put (groupCommit c) cPending pend
  let s := s.setShadow (Adr.MRG_PAIR 3) (putFld (putFld 0 Bits.MRG_PAIR_VT vt) Bits.MRG_PAIR_N n)
  (s.put Adr.RLY_ID Bits.RLY_ID_POSTCODE 9).setShadow (Adr.RLY_RTBLK 1) (BitVec.ofNat 64 rt)

/-- Without the key; a transition that is not in the table, and one that is barred by motion; one that is allowed; a late GO;
GO of a reel, a format, the routes (that pass and that do not), and a margin pair out of its range on each side and within
it; Service mode 0. -/
theorem witness_ModesAndCommitGroups :
    (let s := moding 4 0 0
     Accepts s (.engine 3) .mode 0 0 Adr.BLK_MODE ∧ (0x5B000003 : Word).getLsbD 8 = false ∧
     (0x5B000003 : Word).toNat / 2 ^ 24 ≠ 0x5A ∧ (0x5A000003 : Word).toNat / 2 ^ 24 = 0x5A ∧ (0x5A000003 : Word).toNat % 8 ≠ s.mode ∧
     s.fatal = false ∧ (s.mode, 3) ∈ [(1, 3), (1, 4), (2, 1), (2, 3), (2, 4), (4, 3)] ∧ (0x5A000004 : Word).toNat % 8 = s.mode ∧
     getBit (s.get Adr.ANG_CTL Bits.ANG_CTL_STILLMASK) 0 = true ∧ s.still 0 = false ∧
     (s.mode, 1) ∉ [(1, 3), (1, 4), (2, 1), (2, 3), (2, 4), (4, 3)]) ∧
    (let s := moding 4 0 1
     Accepts s (.engine 3) .mode 0 0 Adr.BLK_MODE ∧ s.fatal = false ∧
     (∀ e, e < 4 → getBit (s.get Adr.ANG_CTL Bits.ANG_CTL_STILLMASK) e = true → s.still e = true)) ∧
    (let s := pairing .route 1 20 30 0x40
     Accepts s .host .r1 0 0 (groupCommit .route) ∧ s.groupPending .route = true) ∧
    (let s := pairing .route 0 20 30 0x40
     Accepts s .host .r1 0 0 (groupCommit .route) ∧ s.groupPending .route = false ∧ s.mode ≠ 0 ∧ s.routeCheck = true ∧
     Accepts s .host .r1 0 0 (groupCommit (.reel 3)) ∧ s.groupPending (.reel 3) = false ∧
     Accepts s .host .r1 0 0 (groupCommit (.figFmt 2)) ∧ s.groupPending (.figFmt 2) = false) ∧
    (let s := pairing .route 0 20 30 0x50
     Accepts s .host .r1 0 0 (groupCommit .route) ∧ s.groupPending .route = false ∧ s.mode ≠ 0 ∧ s.routeCheck = false) ∧
    (let s := moding 0 0 0
     s.mode = 0 ∧ Accepts s (.engine 3) .r1 0 0 (groupCommit (.reel 3)) ∧ s.groupPending (.reel 3) = false) ∧
    (let s := pairing (.margin 3) 0 51 30 0x40
     s.groupPending (.margin 3) = false ∧ Accepts s .host .r0 0 0 (groupCommit (.margin 3)) ∧ s.mode ≠ 0 ∧ s.sleep 3 = 0 ∧
     50 < fldOf (s.shadowReg (Adr.MRG_PAIR 3)) Bits.MRG_PAIR_VT) ∧
    fldOf ((pairing (.margin 3) 0 50 23 0x40).shadowReg (Adr.MRG_PAIR 3)) Bits.MRG_PAIR_N < 24 ∧
    48 < fldOf ((pairing (.margin 3) 0 50 49 0x40).shadowReg (Adr.MRG_PAIR 3)) Bits.MRG_PAIR_N ∧
    (let s := pairing (.margin 3) 0 50 48 0x40
     s.groupPending (.margin 3) = false ∧ Accepts s .host .r0 0 0 (groupCommit (.margin 3)) ∧ s.mode ≠ 0 ∧ s.sleep 3 = 0 ∧
     fldOf (s.shadowReg (Adr.MRG_PAIR 3)) Bits.MRG_PAIR_VT ≤ 50 ∧ 24 ≤ fldOf (s.shadowReg (Adr.MRG_PAIR 3)) Bits.MRG_PAIR_N ∧
     fldOf (s.shadowReg (Adr.MRG_PAIR 3)) Bits.MRG_PAIR_N ≤ 48 ∧ s.worn 3 = true ∧ s.eventTile 3 = false) := by
    repeat' with_reducible apply And.intro
    all_goals first | exact ready_of (by decide +kernel) | exact issues_of (by decide +kernel) |
      exact branch_ready_of (by decide +kernel) | exact muldiv_of (by decide +kernel) |
      exact owns_of (by decide +kernel) | exact plain_of (by decide +kernel) | exact tops_of (by decide +kernel) |
      exact mem_of (by decide +kernel) | exact clean_of (by decide +kernel) |
      exact unbuffered_of (by decide +kernel) | exact room_of (by decide +kernel) |
      exact serving_of (by decide +kernel) | exact sound_of (by decide +kernel) | exact accepts_of (by decide +kernel) |
      exact reads_of (by decide +kernel) | decide +kernel

/-- A ring of the reel hub and of a figure; a ring of engine 3 at its own tile whose source is of another tile; a letter
with 4,095; a ring that a host's write and one that an engine's store waits for; an engine that may not issue; a claim of
an engine of another tile and one that is masked; and a descriptor written to a tile in Off. -/
theorem witness_RingsAnswerAndAreRefused :
    (let s := bell 4 1024 1 0 0 0 2 0
     Accepts s (.engine 3) .all 0 0 Adr.BLK_DOORBELL ∧ Accepts s (.engine 3) .all 0 0 (Adr.TIL_DOORBELL 0) ∧
     Accepts s .relay .all 0 0 Adr.BLK_DOORBELL ∧ desc s 1024 Bits.BLK_DBDESC_TILE ≠ 0) ∧
    nextB .doorbellRing { bell 4 1024 1 0 0 0 0 1 with rings := [⟨1024, .engine 3 0, none⟩] } (fun _ => true) = true ∧
    (ringing (bell 1 5 1 0 1 0 2 0) 0xFFF .letter).rings = ⟨0xFFF, .letter, none⟩ :: [⟨7, .host, none⟩] ∧
    (let s : State := { bell 1 1024 1 0 0 0 2 0 with rings := [⟨1024, .host, some (.host, 5, 0)⟩] }
     nextB .doorbellRing { s with rings := [⟨1024, .host, none⟩] } (fun _ => true) = true) ∧
    (let s := (bell 1 1024 1 0 0 0 2 0).modEng 3 (fun e => { e with waitResp := [⟨Adr.BLK_DOORBELL, 5⟩] })
     let r : Ring := ⟨1024, .engine 3 0, some (.engine 3, 0, Adr.BLK_DOORBELL)⟩
     nextB .doorbellRing { s with rings := [{ r with reply := none }] } (fun u =>
       ((u.eng 3).waitResp.find? (fun z => z.faddr.toNat == Adr.BLK_DOORBELL)).isSome) = true) ∧
    ((at3 [] []).put (Adr.FLT_FENG 0) ⟨3, 1⟩ 1).sends (.engine 3) = false ∧
    (let s := putL (bell 1 5 1 0 0 0 0 1) [(Adr.BLK_DBDESC 5, Bits.BLK_DBDESC_MASK, 1)]
     Reads s (.engine 3) (Adr.TIL_CLAIM 0 5) ∧ s.pendBit 0 5 = true ∧ desc s 5 Bits.BLK_DBDESC_MASK ≠ 0 ∧
     ¬ getBit (desc s 5 Bits.BLK_DBDESC_MASK) (engOf 3) = true ∧ Reads s .debug (Adr.TIL_CLAIM 0 5)) ∧
    (let s := (bell 1 5 1 0 0 0 2 1).put (Adr.MRG_TSTAT 11) Bits.MRG_TSTAT_SLEEP 3
     Accepts s .host .r0 0 0 (Adr.BLK_DBDESC 5) ∧ s.pendBit 2 5 = true ∧ s.sleep 11 = 3) ∧
    (let s := (bell 1 5 1 0 0 0 2 1).put (Adr.CAL_CTX_CTL 11 33) Bits.CAL_CTX_CTL_STATE 3
     Accepts s .host .r0 0 0 (Adr.BLK_DBDESC 5) ∧ s.pendBit 2 5 = true ∧ s.sleep 11 = 0 ∧ s.tileFenced 11 = false ∧
     s.ctxState 11 33 = 3) := by
    repeat' with_reducible apply And.intro
    all_goals first | exact ready_of (by decide +kernel) | exact issues_of (by decide +kernel) |
      exact branch_ready_of (by decide +kernel) | exact muldiv_of (by decide +kernel) |
      exact owns_of (by decide +kernel) | exact plain_of (by decide +kernel) | exact tops_of (by decide +kernel) |
      exact mem_of (by decide +kernel) | exact clean_of (by decide +kernel) |
      exact unbuffered_of (by decide +kernel) | exact room_of (by decide +kernel) |
      exact serving_of (by decide +kernel) | exact sound_of (by decide +kernel) | exact accepts_of (by decide +kernel) |
      exact reads_of (by decide +kernel) | decide +kernel

/-! ### Witnesses: reels and relays -/

/-- Reel 2 in a state, with EN as given, three nodes, and slots 0 and 2 enabled. -/
def reeling (st en : Nat) : State :=
  let s : State := { at3 [] [] with plls := 7, poreset := false }
  let s := putL s [(Adr.REEL_STAT 2, Bits.REEL_STAT_STATE, st), (Adr.REEL_CTL 2, Bits.REEL_CTL_EN, en),
    (Adr.REEL_CTL 2, Bits.REEL_CTL_FSAFE, 0), (Adr.REEL_STAT 2, Bits.REEL_STAT_NODES, 3),
    (Adr.REEL_PER 2, Bits.REEL_PER_PER, 5000), (Adr.REEL_EXSTAT 2, Bits.REEL_EXSTAT_ALLOW, 1),
    (Adr.REEL_STAT 2, Bits.REEL_STAT_LOCK, 1)]
  [0, 1, 2].foldl (fun s (p : Nat) => putL s [(Adr.REEL_NODE 2 p 0, ⟨0, 32⟩, 1), (Adr.REEL_NODE 2 p 1, ⟨0, 32⟩, 4 + p),
    (Adr.REEL_NODE 2 p 2, ⟨0, 32⟩, 7), (Adr.REEL_SLOT 2 p, ⟨0, 8⟩, 4 + p), (Adr.REEL_SLOT 2 p, ⟨31, 1⟩, if p = 1 then 0 else 1)]) s

def withReel (s : State) (f : ReelUnit → ReelUnit) : State := s.setReel 2 (f (s.reel 2))

/-- Reel 2 in an addressing pass. -/
def inPass (p : ReelPass) : State := withReel (reeling 2 1) (fun u => { u with pass := some p })

def node : NodeDesc := ⟨1, 5, 7, 0x99⟩

/-- EN 1 and EN 0, passed and not; failures 0 and 2 in each frame of the pass, and its success with 0 and with 64 nodes. -/
theorem witness_ReelAddressingPass :
    Accepts (reeling 1 1) .host .r1 0 0 (Adr.REEL_CTL 2) ∧ (reeling 1 1).reelEnabled 2 = true ∧
    (let s := reeling 1 0
     Accepts s .host .r1 0 0 (Adr.REEL_CTL 2) ∧ s.reelEnabled 2 = false ∧ s.reelClock = true ∧ s.fatal = false ∧
     s.reelFenced 2 = false ∧ (s.reel 2).pass = none ∧ (s.reel 2).passed = false) ∧
    (let s := withReel (reeling 1 0) (fun u => { u with passed := true })
     Accepts s .host .r1 0 0 (Adr.REEL_CTL 2) ∧ s.reelEnabled 2 = false ∧ (s.reel 2).passed = true ∧
     s.bit (Adr.REEL_CTL 2) 2 = false) ∧
    ((inPass {}).reel 2).pass = some { conf := false, fails := 0 } ∧
    ((inPass { fails := 2 }).reel 2).pass = some { conf := false, fails := 2 } ∧
    ((64 : BitVec 8).toNat ≤ 64 ∧ (List.replicate 64 node).length = (64 : BitVec 8).toNat ∧
     ∀ d ∈ List.replicate 64 node, descValid d.w0.toNat d.w1.toNat d.w2.toNat = true) ∧
    (([] : List NodeDesc).length = (0 : BitVec 8).toNat) ∧
    (let s := inPass { conf := true }
     (s.reel 2).pass = some { conf := true, fails := 0 } ∧ s.get (Adr.REEL_STAT 2) Bits.REEL_STAT_NODES = 3 ∧
     (∀ i, i < s.get (Adr.REEL_STAT 2) Bits.REEL_STAT_NODES → (7 : BitVec 64).getLsbD i = true) ∧
     ¬ (∀ i, i < s.get (Adr.REEL_STAT 2) Bits.REEL_STAT_NODES → (3 : BitVec 64).getLsbD i = true)) ∧
    ((inPass { conf := true, fails := 2 }).reel 2).pass = some { conf := true, fails := 2 } := by
    repeat' with_reducible apply And.intro
    all_goals first | exact ready_of (by decide +kernel) | exact issues_of (by decide +kernel) |
      exact branch_ready_of (by decide +kernel) | exact muldiv_of (by decide +kernel) |
      exact owns_of (by decide +kernel) | exact plain_of (by decide +kernel) | exact tops_of (by decide +kernel) |
      exact mem_of (by decide +kernel) | exact clean_of (by decide +kernel) |
      exact unbuffered_of (by decide +kernel) | exact room_of (by decide +kernel) |
      exact serving_of (by decide +kernel) | exact sound_of (by decide +kernel) | exact accepts_of (by decide +kernel) |
      exact reads_of (by decide +kernel) | decide +kernel

/-- Reel 2 sending, in time mode or angle mode. -/
def sending (mode ainc : Nat) : State :=
  putL (withReel (reeling 3 1) (fun u => { u with passed := true }))
    [(Adr.REEL_PER 2, Bits.REEL_PER_MODE, mode), (Adr.REEL_AINC 2, Bits.REEL_AINC_INC, ainc)]

/-- Reel 2 with slot 2 next, closed or not. -/
def slotNext (latched : Nat) : State :=
  withReel (sending 0 0) (fun u => { u with todo := [2], latched := latched, snap := [(2, List.replicate 24 0)] })

/-- Reel 2 with a cycle of slots 0 and 2 out, whose slots have come back or not. -/
def cycleOut (got : List Nat) : State :=
  withReel (sending 0 0) (fun u => { u with cycles := [{ no := 7, ang := false, slots := [(0, 4), (2, 6)], got := got, bad := 0 }] })

def slotBack : SlotReturn := ⟨2, true, true, false, List.replicate 24 0x77⟩

/-- A cycle start, a keep cycle and one that is suppressed, an entry that R227 refuses, slots going out with and without their
staged bytes, a slot coming back, a frame that is complete, and slots closed one by one, all, and on a fenced reel. -/
theorem witness_ReelCyclesAndSlots :
    (let s := sending 0 0
     s.reelClock = true ∧ (s.reel 2).todo = [] ∧ s.groupPending (.reel 2) = false ∧ s.reelState 2 = 3 ∧ s.reelSending 2 = true ∧
     s.get (Adr.REEL_EXSTAT 2) Bits.REEL_EXSTAT_ALLOW = 1 ∧ s.get (Adr.REEL_PER 2) Bits.REEL_PER_MODE ≠ 1) ∧
    (let s := sending 1 100000
     s.reelState 2 = 3 ∧ s.reelSending 2 = true ∧ s.get (Adr.REEL_PER 2) Bits.REEL_PER_MODE = 1 ∧ s.keepSuppressed 2 = false) ∧
    (let s := withReel (reeling 1 1) (fun u => { u with passed := true })
     let s := putL s [(Adr.REEL_PER 2, Bits.REEL_PER_PER, 0), (Adr.REEL_FIRE 2, ⟨0, 16⟩, 3)]
     s.reelClock = true ∧ (s.reel 2).todo = [] ∧ s.groupPending (.reel 2) = false ∧
     s.get (Adr.REEL_PER 2) Bits.REEL_PER_MODE ≠ 1 ∧ s.reelState 2 = 1 ∧ s.reelEnabled 2 = true ∧ (s.reel 2).passed = true ∧
     (s.reel 2).failed = false ∧ (s.reel 2).pass = none ∧ (s.reel 2).barred = false ∧ s.mode = 4 ∧ s.fatal = false ∧
     s.reelCheck s.reg 2 = false) ∧
    (let s := slotNext 0
     (s.reel 2).todo = 2 :: [] ∧ getBit (s.reel 2).nsafe 2 = false ∧ 1 ≤ s.slotWords 2 2 ∧ s.slotWords 2 2 = 6 ∧
     Clean s (lineAdr 2 2) 24 ∧ s.memErr (lineAdr 2 2 + 24 - 1) = false ∧ Sound s ∧
     s.get Adr.BLK_LIBINJCTL Bits.BLK_LIBINJCTL_ARM = 0 ∧ getBit (s.reel 2).latched 2 = false) ∧
    (let s := slotNext 4
     (s.reel 2).todo = 2 :: [] ∧ Sound s ∧ getBit (s.reel 2).latched 2 = true ∧ Clean s (stageAdr 2 2) 24 ∧
     mget (memBytes s.mem (stageAdr 2 2) 24) (s.reel 2).snap 2 = memBytes s.mem (stageAdr 2 2) 24) ∧
    (let s := cycleOut []
     let c : ReelCycle := { no := 7, ang := false, slots := [(0, 4), (2, 6)], got := [], bad := 0 }
     (s.reel 2).cycles = c :: [] ∧ Sound s ∧ c.slots.find? (fun x => x.1 == slotBack.pos.val) = some (slotBack.pos.val, 6) ∧
     c.got.contains slotBack.pos.val = false ∧ c.hdrBad = false ∧ slotBack.rvalid = true ∧ slotBack.payload.length = 4 * 6 ∧
     s.memErr (retAdr 2 c.no slotBack.pos) = false ∧ s.memErr (retAdr 2 c.no slotBack.pos + 4 * 6 - 1) = false) ∧
    (let s := cycleOut [0, 2]
     let c : ReelCycle := { no := 7, ang := false, slots := [(0, 4), (2, 6)], got := [0, 2], bad := 0 }
     (s.reel 2).cycles = c :: [] ∧ (∀ x ∈ c.slots, c.got.contains x.1 = true) ∧ c.got ≠ []) ∧
    Accepts (sending 0 0) .host .r2 0 0 (Adr.REEL_CLOSE 2) ∧ (sending 0 0).reelFenced 2 = false ∧
    (63 : Word).getLsbD 6 = false ∧ (64 : Word).getLsbD 6 = true ∧
    (let s := (sending 0 0).put Adr.FLT_FPORT ⟨2, 1⟩ 1
     Accepts s .host .r2 0 0 (Adr.REEL_CLOSE 2) ∧ s.reelFenced 2 = true) := by
    repeat' with_reducible apply And.intro
    all_goals first | exact ready_of (by decide +kernel) | exact issues_of (by decide +kernel) |
      exact branch_ready_of (by decide +kernel) | exact muldiv_of (by decide +kernel) |
      exact owns_of (by decide +kernel) | exact plain_of (by decide +kernel) | exact tops_of (by decide +kernel) |
      exact mem_of (by decide +kernel) | exact clean_of (by decide +kernel) |
      exact unbuffered_of (by decide +kernel) | exact room_of (by decide +kernel) |
      exact serving_of (by decide +kernel) | exact sound_of (by decide +kernel) | exact accepts_of (by decide +kernel) |
      exact reads_of (by decide +kernel) | decide +kernel

/-- Reel 2 with entries queued for express frames, and frames out. -/
def express (q : Nat) (fr : List (Nat × Nat)) : State :=
  withReel (sending 0 0) (fun u => { u with
    numbered := true, frames := fr, queue := if q = 0 then [] else [List.replicate q 0x40000001] })

/-- Writes without an entry, with one of reel 2 and with one of reel 1, to a queue of 62 and of 64; a queued frame of 16; a
frame with all of three acknowledged and one with none; lock held. -/
theorem witness_ReelExpressAndLine :
    Accepts (express 62 []) .host .r2 0 0 (Adr.REEL_EXP 2) ∧ (express 62 []).reelFenced 2 = false ∧
    [(0xFFFFFFFFFFFFFFFF : DWord).setWidth 32, (0xFFFFFFFFFFFFFFFF : DWord).extractLsb' 32 32].filter
      (fun w => w.toNat / 2 ^ 12 % 4 != 3) = ([] : List Word) ∧
    (express 62 []).reelSending 2 = true ∧ ((express 62 []).reel 2).waiting = [] ∧
    [(0x4000100140000001 : DWord).setWidth 32, (0x4000100140000001 : DWord).extractLsb' 32 32].filter
      (fun w => w.toNat / 2 ^ 12 % 4 != 3) = ([0x40000001, 0x40001001] : List Word) ∧
    (0x40000001 : Word).toNat / 2 ^ 29 = 2 ∧ (0x40001001 : Word).toNat / 2 ^ 29 = 2 ∧
    ((((express 62 []).reel 2).queue.map List.length).foldl (· + ·) 0 + 2 ≤ 64) ∧
    (64 < (((express 64 []).reel 2).queue.map List.length).foldl (· + ·) 0 + 2) ∧
    Accepts (express 64 []) .host .r2 0 0 (Adr.REEL_EXP 2) ∧ (0x20000001 : Word).toNat / 2 ^ 29 ≠ 2 ∧
    (let s := express 16 []
     s.reelSending 2 = true ∧ s.get (Adr.REEL_EXSTAT 2) Bits.REEL_EXSTAT_ALLOW = 1 ∧
     (s.reel 2).queue = [List.replicate 16 0x40000001] ∧ (List.replicate 16 (0x40000001 : Word)).length ≤ 16 ∧
     (s.reel 2).numbered = true ∧ (s.reel 2).waiting = []) ∧
    ((express 0 [(7, 3)]).reel 2).frames = (7, 3) :: [] ∧
    ((List.range 3).filter (fun i => !(7 : BitVec 16).getLsbD i)).length = 0 ∧
    0 < ((List.range 3).filter (fun i => !(0 : BitVec 16).getLsbD i)).length ∧
    (express 0 []).get (Adr.REEL_STAT 2) Bits.REEL_STAT_LOCK = 1 ∧ ((express 0 []).mode ≠ 0 ∨ (express 0 []).reelEnabled 2 = true) ∧
    (express 0 []).reelClock = true := by
    repeat' with_reducible apply And.intro
    all_goals first | exact ready_of (by decide +kernel) | exact issues_of (by decide +kernel) |
      exact branch_ready_of (by decide +kernel) | exact muldiv_of (by decide +kernel) |
      exact owns_of (by decide +kernel) | exact plain_of (by decide +kernel) | exact tops_of (by decide +kernel) |
      exact mem_of (by decide +kernel) | exact clean_of (by decide +kernel) |
      exact unbuffered_of (by decide +kernel) | exact room_of (by decide +kernel) |
      exact serving_of (by decide +kernel) | exact sound_of (by decide +kernel) | exact accepts_of (by decide +kernel) |
      exact reads_of (by decide +kernel) | decide +kernel

/-- The relay ports in a link state, in a mode, with the block's postcode 9 and routes 1, 2, 3, 4 for the blocks 1 to 4. -/
def relaying (st mode : Nat) : State :=
  let s : State := { at3 [] [] with plls := 7, poreset := false }
  let s := (List.range 4).foldl (fun s (p : Nat) => putL s [(Adr.RLY_PCTL p, Bits.RLY_PCTL_EN, 1),
    (Adr.RLY_PSTAT p, Bits.RLY_PSTAT_STATE, st), (Adr.RLY_CRED p, Bits.RLY_CRED_UFREE, 7), (Adr.RLY_CRED p, Bits.RLY_CRED_BFREE, 5),
    (Adr.RLY_CRED p, Bits.RLY_CRED_UCRED, 15), (Adr.RLY_CRED p, Bits.RLY_CRED_BCRED, 3)]) s
  putL s [(Adr.RLY_ID, Bits.RLY_ID_POSTCODE, 9), (Adr.BLK_MODE, Bits.BLK_MODE_MODE, mode), (Adr.RLY_RTBLK 0, ⟨0, 32⟩, 0x43210),
    (Adr.RLY_RTBLK 1, ⟨0, 32⟩, 0x40), (Adr.RLY_CTL, Bits.RLY_CTL_HOPS, 30)]

/-- Port 2 with a ping to send or waited for, and 15 measurements or more. -/
def measuring (q : Nat) (w : Bool) : State :=
  let s := relaying 3 4
  s.setRelay 2 { s.relay 2 with ping := some q, wait := w, lats := List.replicate 20 100 }

/-- A port in training, with its own postcode or another at the far end; a port that is up, with EN; measurements. -/
theorem witness_RelayLinkStates :
    (relaying 1 0).rlyState 2 = 1 ∧ (9 : BitVec 12).toNat = (relaying 1 0).postcode ∧
    (10 : BitVec 12).toNat ≠ (relaying 1 0).postcode ∧
    (let s := relaying 3 4
     s.rlyState 2 = 3 ∧ (s.relay 2).urgent = [] ∧ (s.relay 2).bulk = [] ∧ Accepts s .host .r1 0 0 (Adr.RLY_PCTL 2) ∧
     s.get (Adr.RLY_PCTL 2) Bits.RLY_PCTL_EN = 1 ∧ (s.relay 2).wait = false ∧ s.rlyState 2 ≠ 0) ∧
    (let s := measuring 3 true
     s.rlyState 2 = 3 ∧ (s.relay 2).ping = some 3 ∧ (s.relay 2).wait = true ∧ (s.relay 2).ping = some (3 : BitVec 8).toNat ∧
     ((((500 : BitVec 16).toNat - 2 * (7 : BitVec 8).toNat) :: (s.relay 2).lats).take 16).length = 16 ∧
     ((((500 : BitVec 16).toNat - 2 * (7 : BitVec 8).toNat) :: (s.relay 2).lats).take 16).foldl (· + ·) 0 % 2 = 0 ∧
     (s.relay 2).ping ≠ some (4 : BitVec 8).toNat) := by
    repeat' with_reducible apply And.intro
    all_goals first | exact ready_of (by decide +kernel) | exact issues_of (by decide +kernel) |
      exact branch_ready_of (by decide +kernel) | exact muldiv_of (by decide +kernel) |
      exact owns_of (by decide +kernel) | exact plain_of (by decide +kernel) | exact tops_of (by decide +kernel) |
      exact mem_of (by decide +kernel) | exact clean_of (by decide +kernel) |
      exact unbuffered_of (by decide +kernel) | exact room_of (by decide +kernel) |
      exact serving_of (by decide +kernel) | exact sound_of (by decide +kernel) | exact accepts_of (by decide +kernel) |
      exact reads_of (by decide +kernel) | decide +kernel

def letter (k d h : Nat) : Letter :=
  { kind := k, dest := d, src := 77, urg := k == 3, hops := h, arg := 0x20500000 + 16 * k, rlen := if k = 1 then 8 else 0
    payload := if k = 0 then List.replicate 12 5 else [] }

/-- Port 1 with a letter on a lane. -/
def laneOut (urg : Bool) (row : Nat) : State :=
  let s := relaying 3 4
  let o : OutLetter := { let_ := letter (if urg then 3 else 0) 3 5 }
  s.setRelay 1 { s.relay 1 with row := row, urgent := if urg then [o] else [], bulk := if urg then [] else [o] }

/-- Engine 3 and the host with a remote PC of block 1. -/
def remote : State :=
  ((relaying 3 4).modEng 3 (fun e => { e with arch := { e.arch with remotePc := 1 } })).put Adr.RLY_HOSTPC ⟨0, 32⟩ 1

/-- A letter from port 1 in the inbox, with a window that grants 0x20500000 to 0x2050003F or without one. -/
def inboxed (k en : Nat) : State :=
  let s := putL (relaying 3 4) [(Adr.RLY_INWIN_CTL 2, Bits.RLY_INWIN_CTL_EN, en), (Adr.RLY_INWIN_CTL 2, Bits.RLY_INWIN_CTL_W, 1),
    (Adr.RLY_INWIN_BASE 2, Bits.RLY_INWIN_BASE_BASE, 0x20500000 / 64), (Adr.RLY_INWIN_CTL 2, Bits.RLY_INWIN_CTL_LIMIT, 0x20500100 / 64)]
  { s with inbox := [{ id := 3, let_ := letter k 9 2, port := some 1 }] }

/-- A letter with no room, one that is no letter, one with no hops left, one forwarded and one for this block; an urgent and a
bulk letter sent; remote writes to a doorbell and elsewhere; remote reads by an engine and the debug master; a read
outstanding; letters that ring, that no window grants, and that write. -/
theorem witness_RelayLettersAndTheRemoteWindow :
    (let s := relaying 3 4
     s.readWait = [] ∧ s.rlyState 1 = 3 ∧ 0 < s.get (Adr.RLY_CRED 1) Bits.RLY_CRED_BFREE ∧
     s.get (Adr.RLY_CRED 1) Bits.RLY_CRED_BFREE ≤ 16 ∧ frameUrgent (letter 0 2 5).frame = false ∧
     parseLetter (letter 0 2 5).frame = some (letter 0 2 5) ∧ (letter 0 2 5).kind ≤ 3 ∧ (letter 0 2 5).urg = false ∧
     s.routeOf 2 = 2 ∧ (letter 0 2 5).hops ≠ 0 ∧ s.rlyState 2 = 3 ∧
     parseLetter (letter 0 2 0).frame = some (letter 0 2 0) ∧ (letter 0 2 0).hops = 0 ∧
     parseLetter (letter 0 9 5).frame = some (letter 0 9 5) ∧ s.routeOf 9 = 4 ∧ (letter 0 9 5).kind ≠ 2 ∧
     parseLetter ((letter 0 2 5).frame.map (· ^^^ 1)) = none ∧
     0 < s.get (Adr.RLY_CRED 1) (if frameUrgent ((letter 0 2 5).frame.map (· ^^^ 1)) then Bits.RLY_CRED_UFREE else Bits.RLY_CRED_BFREE)) ∧
    ((relaying 3 4).put (Adr.RLY_CRED 1) Bits.RLY_CRED_BFREE 0).get (Adr.RLY_CRED 1) Bits.RLY_CRED_BFREE = 0 ∧
    (let s := laneOut true 7
     s.readWait = [] ∧ s.rlyState 1 = 3 ∧ (s.relay 1).urgent = { let_ := letter 3 3 5 } :: [] ∧
     0 < s.get (Adr.RLY_CRED 1) Bits.RLY_CRED_UCRED ∧ (s.relay 1).row < 8) ∧
    (let s := laneOut false 8
     s.readWait = [] ∧ s.rlyState 1 = 3 ∧ (s.relay 1).bulk = { let_ := letter 0 3 5 } :: [] ∧
     0 < s.get (Adr.RLY_CRED 1) Bits.RLY_CRED_BCRED ∧ (s.relay 1).urgent = [] ∧ 8 ≤ (s.relay 1).row) ∧
    (let s := remote
     s.readWait = [] ∧ s.rlyState 1 = 3 ∧ (s.reg Adr.RLY_HOSTPC).toNat < 2 ^ 32 ∧ 0xC0000000 ≤ (0xF0000800 : Word).toNat ∧
     (0xF0000800 : Word).toNat % 2 ^ 2 = 0 ∧ s.routeOf ((s.eng 3).arch.remotePc.toNat % 4096) = 1 ∧
     s.portCode (.engine 3) 0xF0000800 true = .ok ∧
     (s.eng 3).arch.remotePc.toNat / 2 ^ 30 * 2 ^ 30 + (0xF0000800 - 0xC0000000) = 0x30000800 ∧
     s.portCode (.engine 3) 0xC0000008 true = .ok ∧ (s.relay 1).bulk = [] ∧ (s.eng 3).arch.remotePc[29] = false ∧
     s.portCode (.engine 3) 0xC0000008 false = .ok ∧ s.readTags = [] ∧
     s.portCode .debug 0xC0000008 false = .ok ∧ s.routeOf (((s.reg Adr.RLY_HOSTPC).setWidth 32).toNat % 4096) = 1) ∧
    (let t : ReadTag := { who := .port (.engine 3) 0 8, arg := 0, len := 8, port := some 1 }
     let s : State := { relaying 3 4 with readTags := [(5, t)] }
     s.readWait = [] ∧ s.rlyState 1 = 3 ∧ s.readTags = [((5 : BitVec 6).toNat, t)] ∧ t.who = .port (.engine 3) 0 8 ∧
     t.port = some 1) ∧
    (let s := inboxed 3 0
     s.readWait = [] ∧ s.rlyState 1 = 3 ∧ s.inbox = [{ id := 3, let_ := letter 3 9 2, port := some 1 }] ∧ (letter 3 9 2).kind = 3 ∧
     s.get (Adr.RLY_CRED 1) Bits.RLY_CRED_UFREE < 16) ∧
    (let s := inboxed 0 0
     s.inbox = [{ id := 3, let_ := letter 0 9 2, port := some 1 }] ∧ (letter 0 9 2).kind = 0 ∧
     s.get (Adr.RLY_CRED 1) Bits.RLY_CRED_BFREE < 16 ∧ s.winGrants true 0x20500000 = false) ∧
    (let s := inboxed 0 1
     s.inbox = [{ id := 3, let_ := letter 0 9 2, port := some 1 }] ∧
     (∀ i, i < (letter 0 9 2).payload.length → s.winGrants true ((letter 0 9 2).arg + i) = true) ∧
     (letter 0 9 2).payload.length = 12 ∧ spanOf (letter 0 9 2).arg 12 = .mem ∧ s.writeErr (letter 0 9 2).arg 12 = false ∧
     (∀ i, i < 12 → inChannels ((letter 0 9 2).arg + i) = false) ∧ Sound s) := by
    repeat' with_reducible apply And.intro
    all_goals first | exact ready_of (by decide +kernel) | exact issues_of (by decide +kernel) |
      exact branch_ready_of (by decide +kernel) | exact muldiv_of (by decide +kernel) |
      exact owns_of (by decide +kernel) | exact plain_of (by decide +kernel) | exact tops_of (by decide +kernel) |
      exact mem_of (by decide +kernel) | exact clean_of (by decide +kernel) |
      exact unbuffered_of (by decide +kernel) | exact room_of (by decide +kernel) |
      exact serving_of (by decide +kernel) | exact sound_of (by decide +kernel) | exact accepts_of (by decide +kernel) |
      exact reads_of (by decide +kernel) | decide +kernel

/-! ### Witnesses: reels and relays, the other paths -/

/-- Descriptors of the three nodes with a length of 0, a class of 0 and a delay of 21 that are refused, and no reel to write
CTL of twice. -/
theorem witness_ReelPassEdges :
    (let s := inPass { fails := 1 }
     (s.reel 2).pass = some { conf := false, fails := 1 } ∧ [node, ⟨0, 5, 7, 0⟩, ⟨1, 0, 7, 0⟩, ⟨1, 128, 21, 0⟩].length =
       min 64 (4 : BitVec 8).toNat) ∧ min 64 (65 : BitVec 8).toNat = (List.replicate 64 node).length ∧
    (let s := withReel (reeling 1 0) (fun u => { u with passed := true })
     Accepts s .host .r1 0 0 (Adr.REEL_CTL 2) ∧ s.reelEnabled 2 = false ∧ s.reelClock = true ∧ s.fatal = false ∧
     s.reelFenced 2 = false ∧ (s.reel 2).pass = none) := by
    repeat' with_reducible apply And.intro
    all_goals first | exact ready_of (by decide +kernel) | exact issues_of (by decide +kernel) |
      exact branch_ready_of (by decide +kernel) | exact muldiv_of (by decide +kernel) |
      exact owns_of (by decide +kernel) | exact plain_of (by decide +kernel) | exact tops_of (by decide +kernel) |
      exact mem_of (by decide +kernel) | exact clean_of (by decide +kernel) |
      exact unbuffered_of (by decide +kernel) | exact room_of (by decide +kernel) |
      exact serving_of (by decide +kernel) | exact sound_of (by decide +kernel) | exact accepts_of (by decide +kernel) |
      exact reads_of (by decide +kernel) | decide +kernel

/-- Angle mode with a trigger whose line is still busy, at the first time at which it is not, and without one; and a keep
cycle that the velocity suppresses. -/
def triggered (t : Nat) : State :=
  (withReel (sending 1 100000) (fun u => { u with trig := true })).put Adr.ANG_TIME ⟨0, 64⟩ t

theorem witness_ReelTriggersAndRefusals :
    (let s := triggered 0
     s.reelClock = true ∧ (s.reel 2).todo = [] ∧ s.groupPending (.reel 2) = false ∧ s.reelState 2 = 3 ∧
     s.reelSending 2 = true ∧ (s.reel 2).trig = true ∧ s.time.toNat < (s.reel 2).start + lineWindow s.reg 2 + 2000) ∧
    (let s := triggered ((sending 1 100000).reel 2 |>.start.add (lineWindow (sending 1 100000).reg 2 + 2000))
     s.reelState 2 = 3 ∧ (s.reel 2).trig = true ∧ (s.reel 2).start + lineWindow s.reg 2 + 2000 = s.time.toNat) ∧
    (let s := (withReel (sending 1 1) (fun u => u)).setEnc 0 { (run.enc 0) with last := some 0, step := 2 ^ 40 }
     s.get (Adr.REEL_PER 2) Bits.REEL_PER_MODE = 1 ∧ (s.reel 2).trig = false) ∧
    (let s := withReel ((reeling 1 1).put (Adr.REEL_CTL 2) Bits.REEL_CTL_HOLD 10) (fun u => { u with passed := true })
     s.reelState 2 = 1 ∧ s.reelEnabled 2 = true ∧ (s.reel 2).failed = false ∧ (s.reel 2).barred = false ∧
     s.reelCheck s.reg 2 = true ∧ s.get (Adr.REEL_CTL 2) Bits.REEL_CTL_FSAFE = 0 ∧ s.reelFenced 2 = false) := by
    repeat' with_reducible apply And.intro
    all_goals first | exact ready_of (by decide +kernel) | exact issues_of (by decide +kernel) |
      exact branch_ready_of (by decide +kernel) | exact muldiv_of (by decide +kernel) |
      exact owns_of (by decide +kernel) | exact plain_of (by decide +kernel) | exact tops_of (by decide +kernel) |
      exact mem_of (by decide +kernel) | exact clean_of (by decide +kernel) |
      exact unbuffered_of (by decide +kernel) | exact room_of (by decide +kernel) |
      exact serving_of (by decide +kernel) | exact sound_of (by decide +kernel) | exact accepts_of (by decide +kernel) |
      exact reads_of (by decide +kernel) | decide +kernel

/-- Slot 0 latched over bad STAGE bytes, a safe slot, and one that repeats; the edges 1 and 128 of a slot's words. -/
theorem witness_ReelSlotsGoOut :
    (let s : State := { slotNext 4 with marks := [(stageAdr 2 2, { flips := 2 }), (stageAdr 2 2 + 8, { flips := 2 })] }
     (s.reel 2).todo = 2 :: [] ∧ Sound s ∧ s.memErrs (stageAdr 2 2) 24 = false ∧ s.memErrs (lineAdr 2 2) 24 = false ∧
     Clean s (lineAdr 2 2) 24 ∧ s.codeStat (stageAdr 2 2 + 0) = .bad) ∧
    (let s := withReel (slotNext 0) (fun u => { u with nsafe := 4, repeats := 4 })
     getBit (s.reel 2).nsafe 2 = true ∧ getBit (s.reel 2).repeats 2 = true ∧ getBit (s.reel 2).latched 2 = false) := by
    repeat' with_reducible apply And.intro
    all_goals first | exact ready_of (by decide +kernel) | exact issues_of (by decide +kernel) |
      exact branch_ready_of (by decide +kernel) | exact muldiv_of (by decide +kernel) |
      exact owns_of (by decide +kernel) | exact plain_of (by decide +kernel) | exact tops_of (by decide +kernel) |
      exact mem_of (by decide +kernel) | exact clean_of (by decide +kernel) |
      exact unbuffered_of (by decide +kernel) | exact room_of (by decide +kernel) |
      exact serving_of (by decide +kernel) | exact sound_of (by decide +kernel) | exact accepts_of (by decide +kernel) |
      exact reads_of (by decide +kernel) | decide +kernel

/-- A cycle whose every slot stayed away, with a header that is bad. -/
theorem witness_ReelCycleComesBackEmpty :
    (let s := cycleOut []
     let c : ReelCycle := { no := 7, ang := false, slots := [(0, 4), (2, 6)], got := [], bad := 0 }
     (s.reel 2).cycles = c :: [] ∧ Sound s ∧ s.get Adr.BLK_LIBINJCTL Bits.BLK_LIBINJCTL_ARM = 0 ∧
     (∀ x ∈ c.slots, x.1 < 64 ∧ x.2 ≤ 128 ∧ s.memErrs (retAdr 2 c.no x.1) (4 * x.2) = false) ∧
     c.slots.find? (fun x => x.1 == slotBack.pos.val) = some (slotBack.pos.val, 6) ∧
     s.memErrs (retAdr 2 c.no slotBack.pos) (4 * 6) = false) := by
    repeat' with_reducible apply And.intro
    all_goals first | exact ready_of (by decide +kernel) | exact issues_of (by decide +kernel) |
      exact branch_ready_of (by decide +kernel) | exact muldiv_of (by decide +kernel) |
      exact owns_of (by decide +kernel) | exact plain_of (by decide +kernel) | exact tops_of (by decide +kernel) |
      exact mem_of (by decide +kernel) | exact clean_of (by decide +kernel) |
      exact unbuffered_of (by decide +kernel) | exact room_of (by decide +kernel) |
      exact serving_of (by decide +kernel) | exact sound_of (by decide +kernel) | exact accepts_of (by decide +kernel) |
      exact reads_of (by decide +kernel) | decide +kernel

/-- Two express writes of ten entries, of which one fits; nothing allowed; a fenced reel; and a port that is not sending. -/
theorem witness_ReelExpressEdges :
    (let s := withReel (express 0 []) (fun u => { u with queue := [List.replicate 10 0x40000001, List.replicate 10 0x40000001] })
     s.reelSending 2 = true ∧ s.get (Adr.REEL_EXSTAT 2) Bits.REEL_EXSTAT_ALLOW = 1 ∧ (s.reel 2).numbered = true ∧
     (s.reel 2).waiting = [] ∧ (s.reel 2).queue = [List.replicate 10 0x40000001] ++ [List.replicate 10 0x40000001]) ∧
    ((express 5 []).put (Adr.REEL_EXSTAT 2) Bits.REEL_EXSTAT_ALLOW 0).get (Adr.REEL_EXSTAT 2) Bits.REEL_EXSTAT_ALLOW = 0 ∧
    (let s := (express 5 []).put Adr.FLT_FPORT ⟨2, 1⟩ 1
     Accepts s .host .r2 0 0 (Adr.REEL_EXP 2) ∧ s.reelFenced 2 = true) ∧
    (let s := reeling 1 1
     Accepts s .host .r2 0 0 (Adr.REEL_EXP 2) ∧ s.reelFenced 2 = false ∧ s.reelSending 2 = false) := by
    repeat' with_reducible apply And.intro
    all_goals first | exact ready_of (by decide +kernel) | exact issues_of (by decide +kernel) |
      exact branch_ready_of (by decide +kernel) | exact muldiv_of (by decide +kernel) |
      exact owns_of (by decide +kernel) | exact plain_of (by decide +kernel) | exact tops_of (by decide +kernel) |
      exact mem_of (by decide +kernel) | exact clean_of (by decide +kernel) |
      exact unbuffered_of (by decide +kernel) | exact room_of (by decide +kernel) |
      exact serving_of (by decide +kernel) | exact sound_of (by decide +kernel) | exact accepts_of (by decide +kernel) |
      exact reads_of (by decide +kernel) | decide +kernel

/-- Sixteen rounds of 100 half-ns and fifteen; a port that is not in training; one that is not up, and one that is down. -/
theorem witness_RelayTrainingEnds :
    (let l : List (BitVec 8 × BitVec 16) := List.replicate 16 (7, 114)
     l.length = 16 ∧ ((l.map (fun m => m.2.toNat - 2 * m.1.toNat)).foldl (· + ·) 0) = 1600 ∧ 1600 < 2 ^ 16) ∧
    (List.replicate 15 ((7 : BitVec 8), (114 : BitVec 16))).length ≠ 16 ∧
    (let s := relaying 1 4
     s.rlyState 2 = 1 ∧ s.mode ≠ 0 ∧ (10 : BitVec 12).toNat ≠ s.postcode) ∧ (relaying 1 0).mode = 0 ∧
    (relaying 2 4).rlyState 2 ≠ 1 ∧ (relaying 2 4).rlyState 2 ≠ 3 ∧
    (let s := relaying 3 4
     s.rlyState 2 = 3 ∧ s.storeWait = [] ∧ (s.relay 2).ping = none ∧ Accepts s .host .r1 0 0 (Adr.RLY_PCTL 2)) := by
    repeat' with_reducible apply And.intro
    all_goals first | exact ready_of (by decide +kernel) | exact issues_of (by decide +kernel) |
      exact branch_ready_of (by decide +kernel) | exact muldiv_of (by decide +kernel) |
      exact owns_of (by decide +kernel) | exact plain_of (by decide +kernel) | exact tops_of (by decide +kernel) |
      exact mem_of (by decide +kernel) | exact clean_of (by decide +kernel) |
      exact unbuffered_of (by decide +kernel) | exact room_of (by decide +kernel) |
      exact serving_of (by decide +kernel) | exact sound_of (by decide +kernel) | exact accepts_of (by decide +kernel) |
      exact reads_of (by decide +kernel) | decide +kernel

/-- Port 1 with two letters of one lane from the inputs 0 and 3, and the served input as given. -/
def twoInputs (served : Nat) : State :=
  let s := relaying 3 4
  let o (i : Nat) : OutLetter := { let_ := letter 0 3 5, inp := i, buf := if i < 4 then some i else none }
  s.setRelay 1 { s.relay 1 with servedB := served, bulk := [o 0, o 3] }

/-- The letter of input 3 is next after input 2 and the one of input 0 after input 3. -/
theorem witness_RelayInputsTakeTurns :
    (let s := twoInputs 2
     let o (i : Nat) : OutLetter := { let_ := letter 0 3 5, inp := i, buf := if i < 4 then some i else none }
     s.readWait = [] ∧ s.storeWait = [] ∧ s.rlyState 1 = 3 ∧ (s.relay 1).bulk = [o 0] ++ o 3 :: [] ∧ (o 3).let_.urg = false ∧
     (3 + 9 - 2) % 5 ≤ (0 + 9 - 2) % 5 ∧ 0 < s.get (Adr.RLY_CRED 1) Bits.RLY_CRED_BCRED ∧ (s.relay 1).urgent = []) ∧
    (let s := twoInputs 3
     let o (i : Nat) : OutLetter := { let_ := letter 0 3 5, inp := i, buf := if i < 4 then some i else none }
     (s.relay 1).bulk = [] ++ o 0 :: [o 3] ∧ (0 + 9 - 3) % 5 ≤ (3 + 9 - 3) % 5) := by
    repeat' with_reducible apply And.intro
    all_goals first | exact ready_of (by decide +kernel) | exact issues_of (by decide +kernel) |
      exact branch_ready_of (by decide +kernel) | exact muldiv_of (by decide +kernel) |
      exact owns_of (by decide +kernel) | exact plain_of (by decide +kernel) | exact tops_of (by decide +kernel) |
      exact mem_of (by decide +kernel) | exact clean_of (by decide +kernel) |
      exact unbuffered_of (by decide +kernel) | exact room_of (by decide +kernel) |
      exact serving_of (by decide +kernel) | exact sound_of (by decide +kernel) | exact accepts_of (by decide +kernel) |
      exact reads_of (by decide +kernel) | decide +kernel

/-- A reply whose length is not its read's; a store that joins the one before it; a reply behind a letter of its lane and
source, and one whose time has run out. -/
theorem witness_RelayRepliesAndJoins :
    (let l : Letter := { letter 2 9 5 with payload := [1, 2, 3, 4], tag := 5 }
     let s : State := { relaying 3 4 with readTags := [(5, { who := .port (.engine 3) 0 8, arg := 0, len := 8, port := some 1 })] }
     parseLetter l.frame = some l ∧ s.routeOf l.dest = 4 ∧ mhas s.readTags l.tag = true ∧
     (s.readTag l.tag).len ≠ l.payload.length ∧ 0 < s.get (Adr.RLY_CRED 1) Bits.RLY_CRED_BFREE) ∧
    (let w : Letter := { kind := 0, dest := 1, src := 9, hops := 30, arg := 0x8, payload := [1, 2, 3, 4] }
     let o : OutLetter := { let_ := w, by_ := some (.engine 3) }
     let s := remote.setRelay 1 { remote.relay 1 with bulk := [o] }
     s.storeWait = [] ∧ (s.relay 1).bulk = [] ++ [o] ∧ o.let_.arg + o.let_.payload.length = 0xC ∧
     s.portCode (.engine 3) 0xC000000C true = .ok ∧
     (s.eng 3).arch.remotePc.toNat / 2 ^ 30 * 2 ^ 30 + (0xC000000C - 0xC0000000) = 0xC) ∧
    (let t : ReadTag := { who := .port (.engine 3) 0 8, arg := 0, len := 8, dest := 77, port := some 1 }
     let s : State := { relaying 3 4 with readTags := [(5, t)], inbox := [{ id := 3, let_ := letter 0 9 2, port := some 1 }] }
     s.readTags = [((5 : BitVec 6).toNat, t)] ∧ (∀ x ∈ s.inbox, x.let_.kind ≠ 2) ∧
     ¬ (∀ x ∈ s.inbox, x.let_.urg ≠ t.urg ∨ x.let_.src ≠ t.dest)) ∧
    (let t : ReadTag := { who := .port (.engine 3) 0 8, arg := 0, len := 8, dest := 77, port := some 1, late := true }
     let s : State := { relaying 3 4 with readTags := [(5, t)] }
     s.readTags = [((5 : BitVec 6).toNat, t)] ∧ t.late = true ∧ s.inbox = []) := by
    repeat' with_reducible apply And.intro
    all_goals first | exact ready_of (by decide +kernel) | exact issues_of (by decide +kernel) |
      exact branch_ready_of (by decide +kernel) | exact muldiv_of (by decide +kernel) |
      exact owns_of (by decide +kernel) | exact plain_of (by decide +kernel) | exact tops_of (by decide +kernel) |
      exact mem_of (by decide +kernel) | exact clean_of (by decide +kernel) |
      exact unbuffered_of (by decide +kernel) | exact room_of (by decide +kernel) |
      exact serving_of (by decide +kernel) | exact sound_of (by decide +kernel) | exact accepts_of (by decide +kernel) |
      exact reads_of (by decide +kernel) | decide +kernel

/-- The hub's outgoing queue full, whatever it holds. -/
theorem witness_RelayHubFull :
    (let o : OutLetter := { let_ := letter 0 3 5, by_ := some .debug }
     let s : State := { remote with relays := [(1, { bulk := List.replicate (Config.hubRoom + 1) o })] }
     s.hubFull = true ∧ ∀ x ∈ (s.relay 1).bulk, x.by_ ≠ some (.engine 3)) := by
  refine ⟨?_, ?_⟩
  · simp [State.hubFull, List.countP_replicate]
  · simp [State.relay, mget]

/-- Letters of the windows: a read that is granted and one that is not, a write at the external memory, and one to a bank in
a march. -/
def windowed (k r base : Nat) : State :=
  let s := putL (relaying 3 4) [(Adr.RLY_INWIN_CTL 2, Bits.RLY_INWIN_CTL_EN, 1), (Adr.RLY_INWIN_CTL 2, Bits.RLY_INWIN_CTL_W, 1),
    (Adr.RLY_INWIN_CTL 2, Bits.RLY_INWIN_CTL_R, r), (Adr.RLY_INWIN_BASE 2, Bits.RLY_INWIN_BASE_BASE, base / 64),
    (Adr.RLY_INWIN_CTL 2, Bits.RLY_INWIN_CTL_LIMIT, (base + 0x100) / 64), (Adr.RLY_RTBLK 9, ⟨20, 4⟩, 2)]
  { s with inbox := [{ id := 3, let_ := { letter k 9 2 with arg := base + 16 }, port := some 1 }] }

theorem witness_RelayWindowsReadAndReach :
    (let s := windowed 1 1 0x20500000
     s.readWait = [] ∧ s.storeWait = [] ∧ s.rlyState 1 = 3 ∧ s.routeOf 77 = 2 ∧ s.rlyState 2 = 3 ∧
     (∀ i, i < 8 → s.winGrants false (0x20500010 + i) = true) ∧ spanOf 0x20500010 8 = .mem ∧ Clean s 0x20500010 8 ∧
     s.memErrs 0x20500010 8 = false ∧ Sound s) ∧
    (windowed 1 0 0x20500000).winGrants false 0x20500010 = false ∧
    (let s := windowed 0 1 0x40000000
     (∀ i, i < 12 → s.winGrants true (0x40000010 + i) = true) ∧ spanOf 0x40000010 12 = .ext) ∧
    (let s := marching (windowed 0 1 0x20500000)
     (∀ i, i < 12 → s.winGrants true (0x20500010 + i) = true) ∧ spanOf 0x20500010 12 = .mem ∧
     s.writeErr 0x20500010 12 = true) := by
    repeat' with_reducible apply And.intro
    all_goals first | exact ready_of (by decide +kernel) | exact issues_of (by decide +kernel) |
      exact branch_ready_of (by decide +kernel) | exact muldiv_of (by decide +kernel) |
      exact owns_of (by decide +kernel) | exact plain_of (by decide +kernel) | exact tops_of (by decide +kernel) |
      exact mem_of (by decide +kernel) | exact clean_of (by decide +kernel) |
      exact unbuffered_of (by decide +kernel) | exact room_of (by decide +kernel) |
      exact serving_of (by decide +kernel) | exact sound_of (by decide +kernel) | exact accepts_of (by decide +kernel) |
      exact reads_of (by decide +kernel) | decide +kernel

/-! ### Witnesses: faults, power, checks -/

/-- A report with its first-fault record held since time 0 or not, in a mode, at a time. -/
def reported (cls src mode held t : Nat) : State :=
  let s := putL (at3 [] []) [(Adr.BLK_MODE, Bits.BLK_MODE_MODE, mode), (Adr.ANG_TIME, ⟨0, 64⟩, t),
    (Adr.FLT_FIRST_SRC 0, ⟨31, 1⟩, held), (Adr.FLT_FIRST_SRC 1, ⟨31, 1⟩, held), (Adr.FLT_CTL, Bits.FLT_CTL_GRACE, 100)]
  { s with reports := [{ cls := cls, src := src, det := 0x1234 }], poreset := false, plls := 7 }

/-- The grace of the held record has passed, at the boundary. -/
def graceOver (s : State) (c : Nat) : Bool :=
  decide (s.get Adr.FLT_CTL Bits.FLT_CTL_GRACE * 40 ≤ (s.time - s.reg (Adr.FLT_FIRST_SRC c + 8)).toNat)

def healthy (m cls : Nat) (st : Bool) : State :=
  let s := putL (at3 [] []) [(Adr.BLK_MODE, Bits.BLK_MODE_MODE, m), (Adr.FLT_INCFG, Bits.FLT_INCFG_CLASS, cls)]
  { s with health := { s.health with started := st, sample := some (false, true) }, poreset := false, plls := 7 }

/-- A fenced tile `t`, in a fatal block or not. -/
def fencing (t fat fe : Nat) : State :=
  let s := putL (at3 [] []) [(Adr.BLK_MODE, Bits.BLK_MODE_FATAL, fat), (Adr.FLT_FTILE, ⟨t, 1⟩, fe)]
  { s with poreset := false, plls := 7 }

/-- Engine 16 (E0 of tile 1) and the block watchdog's counts on. -/
def watched : State :=
  let s := putL (onEng run 16 0x80000001 [] []) [(Adr.TIL_WDCFG 1, ⟨0, 32⟩, 0xFFFFFFFF), (Adr.BLK_WDCFG, ⟨0, 32⟩, 0xFFFFFFFF)]
  { s with health := { s.health with started := true }, poreset := false, plls := 7 }

/-- Reports of class 0 to 2 with the record free and held, within the grace and after it, of the block and of a tile; the
inputs; tests in Commissioning and in Run; fences of each kind at its last unit and released; watchdogs and ALIVE. -/
theorem witness_FaultsFencesAndWatchdogs :
    (let s := reported 0 0x305 4 0 5
     s.reports = { cls := 0, src := 0x305, det := 0x1234 } :: [] ∧ s.sleep (0x305 / 256) ≠ 3 ∧ s.tileFenced (0x305 / 256) = false ∧
     s.bit (Adr.FLT_FIRST_SRC 0) 31 = false) ∧
    (let s := reported 1 0x5041 4 1 3999
     s.reports = { cls := 1, src := 0x5041, det := 0x1234 } :: [] ∧ 12 ≤ 0x5041 / 256 ∧ s.bit (Adr.FLT_FIRST_SRC 1) 31 = true ∧
     graceOver s 1 = false) ∧
    (let s := reported 1 0x5041 4 1 4000
     s.bit (Adr.FLT_FIRST_SRC 1) 31 = true ∧ graceOver s 1 = true ∧ s.mode ≠ 0 ∧ s.bit (Adr.FLT_FIRST_SRC 2) 31 = false) ∧
    (let s := reported 1 0x5041 0 1 4000
     s.mode = 0 ∧ s.bit (Adr.FLT_FIRST_SRC 1) 31 = true) ∧
    (reported 2 0xFFFF 4 0 5).reports = { cls := 2, src := 0xFFFF, det := 0x1234 } :: [] ∧
    (let s := healthy 4 1 true
     s.health.started = true ∧ s.health.sample = some (false, true) ∧ s.health.host = false ∧
     1 ≤ s.get Adr.FLT_INCFG Bits.FLT_INCFG_CLASS ∧ s.fatal = false ∧ s.poreset = false ∧
     Accepts s .host .r0 0 0 Adr.FLT_ACK ∧ Accepts s .host .r0 0 0 Adr.FLT_TEST ∧ s.mode ≠ 1 ∧ s.mode ≠ 2) ∧
    (healthy 4 1 false).health.started = false ∧
    (let s := healthy 1 1 true
     Accepts s .host .r0 0 0 Adr.FLT_TEST ∧ s.mode = 1 ∧ (0x80000003 : Word).toNat / 2 ^ 30 ≤ 2 ∧
     (0xC0000003 : Word).toNat / 2 ^ 30 = 3) ∧
    (let s := fencing 11 0 0
     Accepts s .host .r0 0 0 Adr.FLT_FENCE ∧ s.fatal = false ∧ Sound s ∧ (511 : BitVec 18).toNat < 512 ∧
     (7 : BitVec 18).toNat < 8 ∧ (3 : BitVec 18).toNat < 4 ∧ (191 : BitVec 18).toNat < 192 ∧ (191 : BitVec 18).toNat % 16 ≠ 0 ∧
     s.engFenced 191 = false ∧ s.tileFenced (191 / 16) = false ∧ s.tileFenced 11 = false ∧
     fenceCount (6 : BitVec 4).toNat ≤ (12 : BitVec 18).toNat ∧ s.sleep 11 ≠ 3) ∧
    (let s := fencing 11 0 1
     Accepts s .host .r0 0 0 Adr.FLT_FENCE ∧ s.fatal = false ∧ s.tileFenced (191 / 16) = true ∧ s.tileFenced 11 = true ∧
     11 ∉ s.health.wired ∧ s.sleep 11 ≠ 3 ∧ s.mode ≠ 0) ∧
    (let s := fencing 11 1 1
     Accepts s (.engine 3) .r0 0 0 Adr.FLT_FENCE ∧ s.fatal = true) ∧
    (let s := watched
     Accepts s (.engine 16) .tileEng (tileOf 16) 0 (Adr.TIL_WDSVC (tileOf 16)) ∧ s.wdogCounts 16 = true ∧ isLead 16 = true ∧
     Accepts s (.engine 16) .wdog 0 0 Adr.BLK_WDOG ∧ (0xC35A0000 : Word).toNat / 2 ^ 16 = 0xC35A ∧
     (0xC35B0001 : Word).toNat / 2 ^ 16 ≠ 0xC35A ∧ s.blkWdogCounts = true) := by
    repeat' with_reducible apply And.intro
    all_goals first | exact ready_of (by decide +kernel) | exact issues_of (by decide +kernel) |
      exact branch_ready_of (by decide +kernel) | exact muldiv_of (by decide +kernel) |
      exact owns_of (by decide +kernel) | exact plain_of (by decide +kernel) | exact tops_of (by decide +kernel) |
      exact mem_of (by decide +kernel) | exact clean_of (by decide +kernel) |
      exact unbuffered_of (by decide +kernel) | exact room_of (by decide +kernel) |
      exact serving_of (by decide +kernel) | exact sound_of (by decide +kernel) | exact accepts_of (by decide +kernel) |
      exact reads_of (by decide +kernel) | decide +kernel

def check0 (mmin : BitVec 4) : CheckData := { mmin := mmin, ffresh := 100, fstr := 90, temp := 77, fmax := (List.range 26).map (BitVec.ofNat _ ·), slack := [1, 1, 1, 1] }

/-- Tile 2 in a sleep state, all rails and clocks at their pair, no context placed. -/
def power (sl : Nat) : State :=
  let s : State := { at3 [] [] with plls := 0x7FFF, poreset := false }
  let s : State := { s with boot := { s.boot with cold := false } }
  let s := putL s [(Adr.MRG_TSTAT 2, Bits.MRG_TSTAT_SLEEP, sl), (Adr.CAL_ENG 0 3, Bits.CAL_ENG_PLACED, 0)]
  (List.range 12).foldl (fun s i => s.setPower i { s.power i with rail := 30, fclk := 40, fmax := (List.range 26).map (· * 2) }) s

def idleB (s : State) (k : Nat) : Bool :=
  (List.range 16).all (fun e => !s.placed (16 * k + e) || (e == 0 && s.ctxOf (16 * k + e) == 0)) &&
    (s.figure k).queue.isEmpty && !s.marching k

/-- A due or running check of tile 2, the sense blocks still or not. -/
def checking (full : Bool) (still : Nat) : State :=
  let s := putL (power 0) [(Adr.ANG_CTL, Bits.ANG_CTL_STILLMASK, 1), (Adr.ANG_STAT 0, Bits.ANG_STAT_STILL, still),
    (Adr.MRG_SWEEP, Bits.MRG_SWEEP_TILE, 2), (Adr.MRG_TSTAT 0, Bits.MRG_TSTAT_SLEEP, 3), (Adr.FLT_FTILE, ⟨1, 1⟩, 1)]
  s.setPower 2 { s.power 2 with check := some (full, check0 12) }

/-- Tile 2 with a committed pair whose steps are pending. -/
def stepping (pend : Nat) : State :=
  let s := putL (power 0) [(groupCommit (.margin 2), cPending, pend), (Adr.MRG_PAIR 2, Bits.MRG_PAIR_VT, 30),
    (Adr.MRG_PAIR 2, Bits.MRG_PAIR_N, 40), (Adr.MRG_BLKV, Bits.MRG_BLKV_FLOOR, 30)]
  s.setShadow (Adr.MRG_PAIR 2) (putFld (putFld 0 Bits.MRG_PAIR_VT 30) Bits.MRG_PAIR_N 41)

/-- Off of a tile with a context, of an idle one with a pair pending and settled; On; Doze, Nap with a wake and without, the
wakes. -/
theorem witness_PowerSleepAndChecks_sleep :
    (let s := (power 0).put (Adr.CAL_ENG 2 1) Bits.CAL_ENG_PLACED 1
     Accepts s .host .r0 2 0 (Adr.MRG_PWR 2) ∧ idleB s 2 = false) ∧
    (let s := stepping 1
     Accepts s .host .r0 2 0 (Adr.MRG_PWR 2) ∧ idleB s 2 = true ∧ s.changing 2 = true) ∧
    (let s := power 0
     Accepts s .host .r0 2 0 (Adr.MRG_PWR 2) ∧ idleB s 2 = true ∧ s.changing 2 = false ∧
     lostInOff 2 (Adr.TIL_PEND 2 3) = true ∧ lostInOff 2 (Adr.TIL_PEND 3 3) = false ∧ Adr.TIL_PEND 3 3 ≠ Adr.MRG_TSTAT 2 ∧
     memTile 0x12005000 = some 2 ∧ memTile 0x20000000 = none) ∧
    (let s := power 3
     s.targetCode .host (Adr.MRG_PWR 2) true = .ok ∧ grant .r0 .host (s.ringOf .host) 2 0 = .ok ∧ s.sleep 2 = 3 ∧ s.mode ≠ 0) ∧
    (let s := (power 0).put (Adr.CAL_ENG 2 0) Bits.CAL_ENG_PLACED 1
     let s := s.modEng 32 (fun e => { e with hold := .waiti })
     s.sleep 2 = 0 ∧ (∀ e, e < 16 → s.placed (16 * 2 + e) = false ∨
       ((s.eng (16 * 2 + e)).hold = .waiti ∧ s.anyPending (16 * 2 + e) = false)) ∧ s.placed 32 = true ∧
     (s.figure 2).running = none ∧ (s.figure 2).queue = [] ∧ s.get (Adr.UC_STAT 2) Bits.UC_STAT_BUSY = 0 ∧
     (s.power 2).pwake = none ∧ s.poreset = false) ∧
    (let s := (power 1).put (Adr.MRG_SLEEP 2) Bits.MRG_SLEEP_NAPEN 1
     s.sleep 2 = 1 ∧ s.get (Adr.MRG_SLEEP 2) Bits.MRG_SLEEP_NAPEN = 1 ∧ s.marching 2 = false ∧ s.changing 2 = false ∧
     ¬ (s.get Adr.MRG_SWEEP Bits.MRG_SWEEP_BUSY = 1 ∧ s.get Adr.MRG_SWEEP Bits.MRG_SWEEP_TILE = 2) ∧
     (s.power 2).check = none ∧ 2 ∉ s.wakes ∧ 2 ∈ ({ s with wakes := [1, 2] } : State).wakes) ∧
    (let s : State := { power 1 with wakes := [1, 2, 5] }
     2 ∈ s.wakes ∧ s.sleep 2 = 1) ∧
    (let s : State := { power 2 with wakes := [2] }
     2 ∈ s.wakes ∧ s.sleep 2 = 2) ∧
    (let s := power 0
     s.sleep 2 = 0 ∧ (s.power 2).check = none ∧ s.poreset = false) := by
    repeat' with_reducible apply And.intro
    all_goals first | exact ready_of (by decide +kernel) | exact issues_of (by decide +kernel) |
      exact branch_ready_of (by decide +kernel) | exact muldiv_of (by decide +kernel) |
      exact owns_of (by decide +kernel) | exact plain_of (by decide +kernel) | exact tops_of (by decide +kernel) |
      exact mem_of (by decide +kernel) | exact clean_of (by decide +kernel) |
      exact unbuffered_of (by decide +kernel) | exact room_of (by decide +kernel) |
      exact serving_of (by decide +kernel) | exact sound_of (by decide +kernel) | exact accepts_of (by decide +kernel) |
      exact reads_of (by decide +kernel) | decide +kernel

/-- A quick check, a due sweep, the sweep's button, a full sweep past a tile that is off and one that is fenced, and checks
that complete, with the sense blocks still and not. -/
theorem witness_PowerSleepAndChecks_checks :
    (let s := power 0
     let s := s.setPower 2 { s.power 2 with quick := true }
     (s.power 2).quick = true ∧ s.sleep 2 ≠ 3 ∧ s.tileFenced 2 = false ∧ s.marching 2 = false ∧ (s.power 2).check = none ∧
     s.poreset = false) ∧
    (let s := putL (power 0) [(Adr.MRG_SWEEP, Bits.MRG_SWEEP_INT, 5), (Adr.MRG_SWEEP, Bits.MRG_SWEEP_SINCE, 5)]
     s.get Adr.MRG_SWEEP Bits.MRG_SWEEP_INT ≠ 0 ∧
     s.get Adr.MRG_SWEEP Bits.MRG_SWEEP_INT ≤ s.get Adr.MRG_SWEEP Bits.MRG_SWEEP_SINCE ∧
     s.get Adr.MRG_SWEEP Bits.MRG_SWEEP_DUE = 0 ∧ Accepts s .host .r0 0 0 Adr.MRG_SWEEP) ∧
    (let s := (power 0).put Adr.MRG_SWEEP Bits.MRG_SWEEP_DUE 1
     Accepts s .host .r0 0 0 Adr.MRG_SWEEP ∧ s.get Adr.MRG_SWEEP Bits.MRG_SWEEP_DUE = 1) ∧
    (let s := (checking true 1).put Adr.MRG_SWEEP Bits.MRG_SWEEP_DUE 1
     let s : State := { s.setPower 2 { s.power 2 with check := none } with sweepNext := 0 }
     s.get Adr.MRG_SWEEP Bits.MRG_SWEEP_DUE = 1 ∧ s.get Adr.MRG_SWEEP Bits.MRG_SWEEP_BUSY = 0 ∧ s.standby = false ∧
     s.blockStill = true ∧ s.sleep 2 ≠ 3 ∧ s.tileFenced 2 = false ∧ s.marching 2 = false ∧ (s.power 2).check = none ∧
     s.poreset = false ∧ s.sweepNext ≤ 2 ∧
     (∀ k, k < 2 → s.sleep k = 3 ∨ s.tileFenced k = true) ∧ s.sleep 1 ≠ 3) ∧
    (let s := checking true 1
     (s.power 2).check = some (true, check0 12) ∧ s.mode ≠ 0 ∧ s.sleep 2 ≠ 3 ∧ s.tileFenced 2 = false ∧ s.blockStill = true ∧
     (check0 12).ffresh ≠ 0) ∧
    (let s := checking false 0
     (s.power 2).check = some (false, check0 12) ∧ s.mode ≠ 0 ∧ s.sleep 2 ≠ 3 ∧ s.tileFenced 2 = false) ∧
    (let s := checking true 0
     (s.power 2).check = some (true, check0 12) ∧ s.blockStill = false ∧ s.get Adr.MRG_SWEEP Bits.MRG_SWEEP_TILE = 2) := by
    repeat' with_reducible apply And.intro
    all_goals first | exact ready_of (by decide +kernel) | exact issues_of (by decide +kernel) |
      exact branch_ready_of (by decide +kernel) | exact muldiv_of (by decide +kernel) |
      exact owns_of (by decide +kernel) | exact plain_of (by decide +kernel) | exact tops_of (by decide +kernel) |
      exact mem_of (by decide +kernel) | exact clean_of (by decide +kernel) |
      exact unbuffered_of (by decide +kernel) | exact room_of (by decide +kernel) |
      exact serving_of (by decide +kernel) | exact sound_of (by decide +kernel) | exact accepts_of (by decide +kernel) |
      exact reads_of (by decide +kernel) | decide +kernel

/-- An hour of Run; VREQ below and at the greatest code; the clock and the rail of a tile, with a pair pending and not;
Standby refused, entered and left. -/
theorem witness_PowerSleepAndChecks_steps :
    (let s := power 0
     s.mode = 4 ∧ s.standby = false ∧ s.poreset = false ∧ s.get Adr.MRG_RUNTIME ⟨0, 32⟩ + 1 < 2 ^ 32) ∧
    (let s := (stepping 0).put Adr.MRG_BLKV Bits.MRG_BLKV_VREQ 29
     s.fatal = false ∧ s.poreset = false ∧ s.boot.cold = false ∧ s.standby = false ∧ s.mode ≠ 0 ∧
     s.get Adr.MRG_BLKV Bits.MRG_BLKV_FLOOR ≤ 30 ∧
     (∀ k : Tile, (if s.sleep k.val = 3 then 0 else if s.changing k = true then max (s.vt k.val) (s.nextVt k.val)
       else s.vt k.val) ≤ 30) ∧ s.vt 2 = 30 ∧ s.get Adr.MRG_BLKV Bits.MRG_BLKV_VREQ ≠ min 30 50) ∧
    ((stepping 0).put Adr.MRG_BLKV Bits.MRG_BLKV_VREQ 30).get Adr.MRG_BLKV Bits.MRG_BLKV_VREQ = min 30 50 ∧
    (let s := stepping 0
     s.sleep 2 < 2 ∧ s.poreset = false ∧ s.get (Adr.MRG_TSTAT 2) Bits.MRG_TSTAT_SAFECLK = 0 ∧ (s.power 2).replan = false ∧
     s.changing 2 = false ∧ s.sleep 2 = 0) ∧
    (let s := stepping 1
     s.sleep 2 < 2 ∧ s.poreset = false ∧ s.get (Adr.MRG_TSTAT 2) Bits.MRG_TSTAT_SAFECLK = 0 ∧ (s.power 2).replan = false ∧
     s.changing 2 = true ∧ (s.power 2).slewed = false ∧ (s.power 2).off = false ∧ s.vt 2 ≤ s.nextVt 2 ∧
     (s.power 2).rail = s.nextVt 2 ∧ (s.power 2).fclk = 40 ∧ s.nextFn 2 = 41) ∧
    (let s := power 0
     Accepts s .host .r0 0 0 Adr.MRG_STBY ∧ s.standby = false ∧ s.mode = 4 ∧ s.fatal = false ∧ s.blockStill = true ∧
     s.marching 12 = false ∧ (∀ k, k < 12 → s.sleep k = 3 ∨ idleB s k = true) ∧ s.changing 2 = false) ∧
    (let s := checking false 0
     Accepts s .host .r0 0 0 Adr.MRG_STBY ∧ s.standby = false ∧ s.blockStill = false) ∧
    (let s : State := (power 0).put Adr.MRG_STBY Bits.MRG_STBY_IN 1
     Accepts s .host .r0 0 0 Adr.MRG_STBY ∧ s.standby = true) := by
    repeat' with_reducible apply And.intro
    all_goals first | exact ready_of (by decide +kernel) | exact issues_of (by decide +kernel) |
      exact branch_ready_of (by decide +kernel) | exact muldiv_of (by decide +kernel) |
      exact owns_of (by decide +kernel) | exact plain_of (by decide +kernel) | exact tops_of (by decide +kernel) |
      exact mem_of (by decide +kernel) | exact clean_of (by decide +kernel) |
      exact unbuffered_of (by decide +kernel) | exact room_of (by decide +kernel) |
      exact serving_of (by decide +kernel) | exact sound_of (by decide +kernel) | exact accepts_of (by decide +kernel) |
      exact reads_of (by decide +kernel) | decide +kernel

/-! ### Witnesses: faults and power, the other paths -/

/-- Of three reports of one cycle the one of the lowest source is first, unless an earlier one is of its tile; and a report of
a tile that is fenced, its last. -/
theorem witness_FaultCollectorOrder :
    (let r (c : Nat) : Report := { cls := 0, src := c, cyc := 7 }
     let s : State := { fencing 11 0 0 with reports := [r 0x4030, r 0x1004, r 0x1005] }
     s.reports = [r 0x4030] ++ r 0x1004 :: [r 0x1005] ∧ 12 ≤ (r 0x1004).src / 256 ∧
     (∀ x ∈ [r 0x4030], x.cyc = (r 0x1004).cyc ∧ (r 0x1004).src < x.src ∧ ¬ (x.src / 256 = 0x1004 / 256 ∧ x.src / 256 < 12)) ∧
     (∀ x ∈ [r 0x1005], x.cyc = (r 0x1004).cyc → (r 0x1004).src ≤ x.src ∨ (x.src / 256 = 0x1004 / 256 ∧ x.src / 256 < 12))) ∧
    (let r : Report := { cls := 1, src := 256 * 11 + 13, last := true }
     let s : State := { fencing 11 0 1 with reports := [r] }
     s.reports = [] ++ r :: [] ∧ s.sleep (r.src / 256) ≠ 3 ∧ s.tileFenced (r.src / 256) = true ∧ r.last = true) ∧
    (let s := fencing 11 0 0
     s.sleep 11 ≠ 3 ∧ s.tileFenced 11 = false) := by
    repeat' with_reducible apply And.intro
    all_goals first | exact ready_of (by decide +kernel) | exact issues_of (by decide +kernel) |
      exact branch_ready_of (by decide +kernel) | exact muldiv_of (by decide +kernel) |
      exact owns_of (by decide +kernel) | exact plain_of (by decide +kernel) | exact tops_of (by decide +kernel) |
      exact mem_of (by decide +kernel) | exact clean_of (by decide +kernel) |
      exact unbuffered_of (by decide +kernel) | exact room_of (by decide +kernel) |
      exact serving_of (by decide +kernel) | exact sound_of (by decide +kernel) | exact accepts_of (by decide +kernel) |
      exact reads_of (by decide +kernel) | decide +kernel

/-- A channel of a node that the pass has found and one beyond it; fences that the hardware has set in this cycle. -/
theorem witness_FencesOfHardwareStay :
    (let s := putL (fencing 11 0 0) [(Adr.REEL_STAT 0, Bits.REEL_STAT_NODES, 1), (Adr.REEL_NODE 0 0 0, ⟨0, 32⟩, 1)]
     s.fatal = false ∧ Sound s ∧ s.channelFound 0x3FFFF = false) ∧
    (let s := withReel (reeling 1 1) (fun u => { u with passed := true })
     let s : State := { s with poreset := false }
     s.fatal = false ∧ Sound s ∧ s.channelFound 0x10000 = true ∧ s.channelFenced 0x10000 = false ∧
     s.channelFound 0x10001 = false) ∧
    ({ fencing 11 0 0 with mem := [(0x20000000 + 8 * 0x10000 + 7, 0x25)] } : State).channelFenced 0x10000 = true ∧
    (let s : State := { fencing 11 0 0 with hwFenced := [(4, 5), (5, 3), (6, 7)] }
     (4, 5) ∈ s.hwFenced ∧ (5, 3) ∈ s.hwFenced ∧ (6, 7) ∈ s.hwFenced ∧ (6, 8) ∉ s.hwFenced) := by
    repeat' with_reducible apply And.intro
    all_goals first | exact ready_of (by decide +kernel) | exact issues_of (by decide +kernel) |
      exact branch_ready_of (by decide +kernel) | exact muldiv_of (by decide +kernel) |
      exact owns_of (by decide +kernel) | exact plain_of (by decide +kernel) | exact tops_of (by decide +kernel) |
      exact mem_of (by decide +kernel) | exact clean_of (by decide +kernel) |
      exact unbuffered_of (by decide +kernel) | exact room_of (by decide +kernel) |
      exact serving_of (by decide +kernel) | exact sound_of (by decide +kernel) | exact accepts_of (by decide +kernel) |
      exact reads_of (by decide +kernel) | decide +kernel

/-- VREQ in class F, in the boot, in Standby while it wakes and while it sleeps; and by the rails in Service mode 0. -/
theorem witness_VreqFollowsTheState :
    ((power 0).put Adr.BLK_MODE Bits.BLK_MODE_FATAL 1).fatal = true ∧
    (let s := power 0
     s.fatal = false ∧ s.poreset = false ∧ s.boot.cold = false) ∧
    ({ power 0 with poreset := true } : State).poreset = true ∧
    (let s := (power 0).put Adr.MRG_STBY Bits.MRG_STBY_IN 1
     let s : State := { s with boot := { s.boot with waking := true } }
     s.standby = true ∧ s.boot.waking = true) ∧
    (let s := putL (power 0) ((Adr.MRG_STBY, Bits.MRG_STBY_IN, 1) ::
       (List.range 12).map (fun t => (Adr.MRG_TSTAT t, Bits.MRG_TSTAT_SLEEP, 3)))
     s.standby = true ∧ s.boot.waking = false ∧ (∀ k, k < 12 → s.sleep k = 3)) ∧
    (let s := (power 0).put Adr.BLK_MODE Bits.BLK_MODE_MODE 0
     s.mode = 0 ∧ s.standby = false ∧ (s.power 2).rail = 30) ∧
    (let s := (power 2).put Adr.MRG_SWEEP Bits.MRG_SWEEP_DUE 1
     s.sleep 2 = 2 ∧ s.get Adr.MRG_SWEEP Bits.MRG_SWEEP_DUE = 1 ∧ (s.power 2).check = none ∧ s.sweepNext ≤ 2) := by
    repeat' with_reducible apply And.intro
    all_goals first | exact ready_of (by decide +kernel) | exact issues_of (by decide +kernel) |
      exact branch_ready_of (by decide +kernel) | exact muldiv_of (by decide +kernel) |
      exact owns_of (by decide +kernel) | exact plain_of (by decide +kernel) | exact tops_of (by decide +kernel) |
      exact mem_of (by decide +kernel) | exact clean_of (by decide +kernel) |
      exact unbuffered_of (by decide +kernel) | exact room_of (by decide +kernel) |
      exact serving_of (by decide +kernel) | exact sound_of (by decide +kernel) | exact accepts_of (by decide +kernel) |
      exact reads_of (by decide +kernel) | decide +kernel

/-! ### Witnesses: the figure unit -/

def mword (l : List (Nat × Nat)) : MicroWord := BitVec.ofNat 128 (l.foldl (fun a x => a + x.2 * 2 ^ x.1) 0)

def formats (a b c : Nat) : DWord :=
  putFld (putFld (putFld 0 Bits.FIG_FMT_AFMT a) Bits.FIG_FMT_BFMT b) Bits.FIG_FMT_CFMT c

def figJob (vl : Nat) : FigJob :=
  { num := 9, dptr := 0x8006000, vl := vl, ring := 0, pr := [], eng := 3, fmt := formats 1 2 3, ticket := 23 }

/-- The words of a descriptor: controls, A's address, C's address, MISCNT, FIRSTMIS and MAXRUN, STATUS. -/
def figDesc (ctl st : Nat) : List Word :=
  [BitVec.ofNat 32 ctl, 0x8007000, 0, 0, 0, 0x8008000, 0, 0, 0, 0, 0, 0, 0, 77, 0x120034, BitVec.ofNat 32 st]

def figRun (vl : Nat) : FigRun := { job := figJob vl, desc := figDesc 0 0, addr := some 5 }

/-- The figure unit of tile 0 with a run. -/
def figuring (r : FigRun) : State :=
  let s := at3 [] []
  s.setFigure 0 { s.figure 0 with running := some r }

/-- A job at the front of the queue, its descriptor in memory. -/
def starting (j : FigJob) (d : List Word) : State :=
  let s := at3 [] []
  { s.setFigure 0 { s.figure 0 with queue := [j] } with mem := memWrite s.mem 0x10806000 (wordBytes d) }

def evenPar (w : MicroWord) : Nat :=
  ((bitSum 64 (w.toNat % 2 ^ 64) + 1) % 2) + 2 * ((bitSum 64 (w.toNat / 2 ^ 64) + 1) % 2)

/-- A run at address `a` whose word there has its parity or not. -/
def sequencing (w : MicroWord) (r : FigRun) (a lim : Nat) (good : Bool) : State :=
  let s := figuring { r with addr := some a }
  let s : State := { s with ucStores := mset s.ucStores (figKey 0 a) { val := w, par := if good then evenPar w else evenPar w ^^^ 1 } }
  s.put (Adr.FIG_STEPLIM 0) Bits.FIG_STEPLIM_LIMIT lim

/-- The word of sequencer operation `k` with displacement field `d`. -/
def seqWord (k d : Nat) : MicroWord := mword [(5, k), (0, d), (66, 1)]

/-- A sequencer step that issues its word. -/
def seqB (k d a : Nat) (r : FigRun) : Bool :=
  let s := sequencing (seqWord k d) r a 0 true
  decide (((s.figure 0).running = some { r with addr := some a }) ∧ r.fault = none ∧ r.ql.length < 8 ∧ r.qm.length < 8 ∧
    r.qx.length < 8 ∧ r.qp.length < 8 ∧ r.qs.length < 8 ∧
    s.get (Adr.FIG_STEPLIM 0) Bits.FIG_STEPLIM_LIMIT = 0 ∧ (s.storeWord (figKey 0 a)).val = seqWord k d ∧
    (s.storeWord (figKey 0 a)).figOk = true ∧ badField ({ r with addr := some a } : FigRun).env (seqWord k d) = none ∧
    mwSeq (seqWord k d) = k)

/-- A figure whose descriptor is in no store, one that starts afresh and one that resumes with its elements masked. -/
theorem witness_FigureUnitRuns_start :
    (let j := { figJob 40 with dptr := 0x30000000 }
     let s := starting j (figDesc 0 0)
     (s.figure 0).running = none ∧ (s.figure 0).queue = j :: [] ∧ s.tableWaits 0 = false ∧
     s.get (Adr.UC_STAT 0) Bits.UC_STAT_BUSY = 0 ∧ j.aborted = false ∧ 0 < j.vl ∧ j.vl ≤ 1024 ∧
     figPlace j.eng j.dptr 64 = none) ∧
    (let j := figJob 40
     let s := starting j (figDesc 0 0)
     (s.figure 0).running = none ∧ (s.figure 0).queue = j :: [] ∧ s.tableWaits 0 = false ∧
     s.get (Adr.UC_STAT 0) Bits.UC_STAT_BUSY = 0 ∧ j.aborted = false ∧ j.vl ≤ 1024 ∧
     figPlace j.eng j.dptr 64 = some (.mem 0x10806000) ∧ allowed j.pr j.ring j.dptr 64 needR = true ∧ Clean s 0x10806000 64 ∧
     memWords s 0x10806000 16 = figDesc 0 0 ∧ (figNew j (s.get (Adr.FIG_MAP 0 9) Bits.FIG_MAP_START) (figDesc 0 0)).descOk = true) ∧
    (let j := figJob 40
     let d := figDesc (2 ^ 26 + 3 * 2 ^ 22) (2 ^ 29 + 3 * 2 ^ 25 + 39 * 2 ^ 8)
     let s := starting j d
     (s.figure 0).queue = j :: [] ∧ memWords s 0x10806000 16 = d ∧ (figNew j (s.get (Adr.FIG_MAP 0 9) Bits.FIG_MAP_START) d).descOk = true ∧
     getBit ((d.getD 15 0).toNat) 29 = true ∧ (d.getD 15 0).toNat / 2 ^ 25 % 2 ^ 4 ≠ 9 ∧
     (d.getD 15 0).toNat / 2 ^ 8 % 2 ^ 11 = 39 ∧ Clean s 0x10806000 64) := by
    repeat' with_reducible apply And.intro
    all_goals first | exact ready_of (by decide +kernel) | exact issues_of (by decide +kernel) |
      exact branch_ready_of (by decide +kernel) | exact muldiv_of (by decide +kernel) |
      exact owns_of (by decide +kernel) | exact plain_of (by decide +kernel) | exact tops_of (by decide +kernel) |
      exact mem_of (by decide +kernel) | exact clean_of (by decide +kernel) |
      exact unbuffered_of (by decide +kernel) | exact room_of (by decide +kernel) |
      exact serving_of (by decide +kernel) | exact sound_of (by decide +kernel) | exact accepts_of (by decide +kernel) |
      exact reads_of (by decide +kernel) | decide +kernel

/-- The step limit reached, a word that fails its parity, and each sequencer operation: on, jump taken and not, repeat
over and not, call, return, end, and the ones that have no place or no meaning. -/
theorem witness_FigureUnitRuns_sequencer :
    (let s := sequencing (seqWord 0 0) { figRun 40 with steps := 6 } 5 6 true
     (s.figure 0).running = some { figRun 40 with steps := 6 } ∧ s.get (Adr.FIG_STEPLIM 0) Bits.FIG_STEPLIM_LIMIT ≠ 0 ∧
     s.get (Adr.FIG_STEPLIM 0) Bits.FIG_STEPLIM_LIMIT ≤ 6) ∧
    (let s := sequencing (seqWord 0 0) { figRun 40 with steps := 5 } 5 6 false
     (s.figure 0).running = some { figRun 40 with steps := 5 } ∧ 5 < s.get (Adr.FIG_STEPLIM 0) Bits.FIG_STEPLIM_LIMIT ∧
     (s.storeWord (figKey 0 5)).figOk = false) ∧
    seqB 0 0 2046 (figRun 40) = true ∧
    (seqB 1 0x1F 5 (figRun 40) = true ∧ 0 + bnat (mwEmit (seqWord 1 0x1F)) < (figRun 40).needed ∧
      (5 : Int) + mwDisp (seqWord 1 0x1F) = 4) ∧
    (seqB 1 3 2046 { figRun 40 with issued := 2 } = true ∧ (figRun 40).needed ≤ 2 + bnat (mwEmit (seqWord 1 3))) ∧
    (seqB 2 0 5 (figRun 40) = true ∧ (figRun 40).rep ≤ 1) ∧
    (let r := { figRun 40 with desc := (figDesc 0 0).set 12 0x20000 }
     seqB 2 0 2047 r = true ∧ r.passes + 1 < r.rep) ∧
    (let r := { figRun 40 with stack := [1, 2, 3] }
     seqB 3 15 2032 r = true ∧ r.stack.length < 4 ∧ (2032 : Int) + mwDisp (seqWord 3 15) < 2048 ∧
     0 ≤ (2032 : Int) + mwDisp (seqWord 3 15)) ∧
    (let r := { figRun 40 with stack := [2047, 2, 3] }
     seqB 4 0 5 r = true ∧ r.stack = 2047 :: [2, 3]) ∧
    seqB 5 0 5 (figRun 40) = true ∧ seqB 7 0 5 (figRun 40) = true ∧ seqB 3 1 5 { figRun 40 with stack := [1, 2, 3, 4] } = true ∧
    seqB 4 0 5 (figRun 40) = true := by
    repeat' with_reducible apply And.intro
    all_goals first | exact ready_of (by decide +kernel) | exact issues_of (by decide +kernel) |
      exact branch_ready_of (by decide +kernel) | exact muldiv_of (by decide +kernel) |
      exact owns_of (by decide +kernel) | exact plain_of (by decide +kernel) | exact tops_of (by decide +kernel) |
      exact mem_of (by decide +kernel) | exact clean_of (by decide +kernel) |
      exact unbuffered_of (by decide +kernel) | exact room_of (by decide +kernel) |
      exact serving_of (by decide +kernel) | exact sound_of (by decide +kernel) | exact accepts_of (by decide +kernel) |
      exact reads_of (by decide +kernel) | decide +kernel

def figStep (w : MicroWord) (base : Nat) : FigStep := { no := 3, word := w, first := true, last := true, base := base }

def figElem : FigElem := { el := 39, acc := 5, val := 0x123456, b := 5, mis := 1, dif := true }

/-- A step without an entry, a load of the last sixteen elements, a map and its exchange. -/
theorem witness_FigureUnitRuns_load_and_map :
    (let r := { figRun 40 with ql := [figStep (mword []) 0], qm := [figStep (mword []) 0] }
     ((figuring r).figure 0).running = some r ∧ mwEntry (figStep (mword []) 0).word = false) ∧
    (let w := mword [(127, 1)]
     let r : FigRun := { figRun 48 with ql := [figStep w 32], ga := { pos := 32 } }
     let s := figuring r
     let n := fmtBytes r.afmt
     (s.figure 0).running = some r ∧ r.dot = false ∧ r.fault = none ∧ r.start = 0 ∧ r.masked = 0 ∧
     (figStep w 32).base + 16 ≤ r.job.vl ∧ r.lm.length < 4 ∧ r.word 8 = 0 ∧ mwFld w 127 118 = 2 ^ 9 ∧ r.ga.held = false ∧
     ∀ k, k < 16 → figPlace r.job.eng ((r.word 4 + (r.ga.pos + k) * n) % 2 ^ 32) n =
         some (.mem (0x10807000 + (32 + k) * n)) ∧ ((r.word 4 + (r.ga.pos + k) * n) % 2 ^ 32) % n = 0 ∧
       allowed r.job.pr r.job.ring ((r.word 4 + (r.ga.pos + k) * n) % 2 ^ 32) n needR = true ∧
       s.memErr (0x10807000 + (32 + k) * n) = false ∧
       (∀ i, i < n → s.codeStat (0x10807000 + (32 + k) * n + i) = .clean)) ∧
    (let w := mword [(127, 1), (85, 1)]
     let y : FigEntry := ⟨3, [1, 2], [3, 4]⟩
     let r : FigRun := { figRun 40 with qm := [figStep w 0], lm := [y] }
     ((figuring r).figure 0).running = some r ∧ r.qm = figStep w 0 :: [] ∧ mwEntry w = true ∧ r.lm = y :: [] ∧
     y.no = (figStep w 0).no ∧ r.ma.length < 4 ∧ mwAop w = 0 ∧ mwBop w = 0) := by
    repeat' with_reducible apply And.intro
    all_goals first | exact ready_of (by decide +kernel) | exact issues_of (by decide +kernel) |
      exact branch_ready_of (by decide +kernel) | exact muldiv_of (by decide +kernel) |
      exact owns_of (by decide +kernel) | exact plain_of (by decide +kernel) | exact tops_of (by decide +kernel) |
      exact mem_of (by decide +kernel) | exact clean_of (by decide +kernel) |
      exact unbuffered_of (by decide +kernel) | exact room_of (by decide +kernel) |
      exact serving_of (by decide +kernel) | exact sound_of (by decide +kernel) | exact accepts_of (by decide +kernel) |
      exact reads_of (by decide +kernel) | decide +kernel

/-- A step of the accumulators that emits, over elements on and off; its result packed in each width; one stored. -/
theorem witness_FigureUnitRuns_results :
    (∀ op ∈ [0, 1, 3, 4, 5, 6, 10, 13],
     let w := mword [(127, 1), (75, op), (66, 1), (67, 1), (60, 4)]
     let y : FigEntry := ⟨3, List.replicate 16 7, List.replicate 16 (-2)⟩
     let r : FigRun := { figRun 42 with qx := [figStep w 32], ma := [y], acc := List.replicate 16 9, masked := 2 ^ 35 }
     ((figuring r).figure 0).running = some r ∧ r.qx = figStep w 32 :: [] ∧ mwEntry w = true ∧ r.ma = y :: [] ∧
     y.no = (figStep w 32).no ∧ r.ap.length < r.resultRoom ∧ r.acc.length = 16 ∧ r.dot = false ∧ r.afmt ≠ 7 ∧ r.bfmt ≠ 7 ∧
     r.isOn (32 + 3) = false ∧ r.isOn (32 + 9) = true ∧ r.isOn (32 + 10) = false ∧ mwOp w = op ∧
     (mwEmit w && (figStep w 32).last) = true) ∧
    (let w := mword [(127, 1), (75, 6)]
     mwOp w = 6 ∧ (mwEmit w && (figStep w 32).last) = false) ∧
    (∀ p ∈ [0, 1, 2],
     let w := mword [(127, 1), (66, 1), (45, p), (41, 15)]
     let r : FigRun := { figRun 40 with qp := [figStep w 32], ap := [⟨3, [figElem]⟩] }
     ((figuring r).figure 0).running = some r ∧ r.qp = figStep w 32 :: [] ∧ (mwEmit w && (figStep w 32).last) = true ∧
     r.ap = ⟨3, [figElem]⟩ :: [] ∧ r.ps.length < r.resultRoom ∧ mwPack w = p) ∧
    (∀ c ∈ [0, 1],
     let w := mword [(127, 1), (66, 1), (27, c)]
     let r : FigRun := { figRun 40 with qs := [figStep w 32], ps := [⟨3, [figElem]⟩], posC := 3, done := 39, firstmis := 50,
                                        fl := [(39, 4)] }
     let s := figuring r
     let n := fmtBytes r.cfmt
     let a := (r.word 0x14 + (r.posC + (39 - 32)) * n) % 2 ^ 32
     (s.figure 0).running = some r ∧ r.qs = figStep w 32 :: [] ∧ (mwEmit w && (figStep w 32).last) = true ∧
     r.ps = ⟨3, [figElem]⟩ :: [] ∧ r.preds = [] ∧ r.fault = none ∧ r.isOn figElem.el = true ∧ r.done ≤ figElem.el ∧
     mwCen w = (c == 1) ∧ figElem.width = 0 ∧ mwAcc48 w = false ∧ r.word 0x18 = 0 ∧ mwBit w 25 = false ∧
     (figStep w 32).base ≤ figElem.el ∧ figPlace r.job.eng a n = some (.mem (0x10808000 + 10 * n)) ∧ a % n = 0 ∧
     allowed r.job.pr r.job.ring a n needW = true ∧ s.writeErr (0x10808000 + 10 * n) n = false ∧
     (∀ k, k < n → inChannels (0x10808000 + 10 * n + k) = false)) ∧ Sound (figuring (figRun 40)) := by
    repeat' with_reducible apply And.intro
    all_goals first | exact ready_of (by decide +kernel) | exact issues_of (by decide +kernel) |
      exact branch_ready_of (by decide +kernel) | exact muldiv_of (by decide +kernel) |
      exact owns_of (by decide +kernel) | exact plain_of (by decide +kernel) | exact tops_of (by decide +kernel) |
      exact mem_of (by decide +kernel) | exact clean_of (by decide +kernel) |
      exact unbuffered_of (by decide +kernel) | exact room_of (by decide +kernel) |
      exact serving_of (by decide +kernel) | exact sound_of (by decide +kernel) | exact accepts_of (by decide +kernel) |
      exact reads_of (by decide +kernel) | decide +kernel

/-- A figure that completes, one whose channel closes, one that is aborted at an element on, and table accesses held. -/
theorem witness_FigureUnitRuns_ends :
    (let r := { figRun 40 with addr := none, issued := 2 }
     let s := figuring r
     (s.figure 0).running = some r ∧ r.fault = none ∧ r.job.vl ≤ 1024 ∧ r.word 0 / 2 ^ 16 % 8 = 0 ∧ r.addr = none ∧ r.qs = [] ∧
     figPlace r.job.eng (r.job.dptr + 0x34) 12 = some (.mem 0x10806034) ∧ s.writeErr 0x10806034 12 = false ∧
     (∀ k, k < 12 → inChannels (0x10806034 + k) = false)) ∧
    (let r := { figRun 40 with addr := none, desc := (figDesc 0 0).set 6 0x80000000 }
     r.cfgC.mode = 4 ∧ r.word 0 / 2 ^ 16 % 8 = 0 ∧ (figuring r).reelFenced r.cfgC.reel = false) ∧
    (let r := { figRun 40 with done := 3, masked := 2 ^ 3 }
     let s := figuring r
     (s.figure 0).running = some r ∧ r.word 0 / 2 ^ 16 % 8 = 0 ∧ Accepts s .host .r1 0 0 (Adr.FIG_CTL 0) ∧
     (s.figure 0).queue = [] ∧ r.done ≤ 4 ∧ r.isOn 4 = true ∧ r.isOn 3 = false) ∧
    (let h : TableAccess := { who := .host, id := 5, adr := 0x30104000, val := none }
     let s := at3 [] []
     let s := s.setFigure 0 { s.figure 0 with held := [h] }
     (s.figure 0).running = none ∧ (s.figure 0).held = h :: [] ∧ h.who = .host) ∧
    (let h : TableAccess := { who := .host, id := 5, adr := 0x30104000, val := some 5 }
     let s := at3 [] []
     let s := s.setFigure 0 { s.figure 0 with held := [h] }
     (s.figure 0).running = none ∧ (s.figure 0).held = h :: [] ∧ h.who = .host) ∧
    (let s := (at3 [] []).modEng 3 (fun e => { e with hold := .figTable 0 false })
     (s.figure 0).running = none ∧ (s.figure 0).held = [] ∧ (s.eng 3).hold = .figTable 0 false) := by
    repeat' with_reducible apply And.intro
    all_goals first | exact ready_of (by decide +kernel) | exact issues_of (by decide +kernel) |
      exact branch_ready_of (by decide +kernel) | exact muldiv_of (by decide +kernel) |
      exact owns_of (by decide +kernel) | exact plain_of (by decide +kernel) | exact tops_of (by decide +kernel) |
      exact mem_of (by decide +kernel) | exact clean_of (by decide +kernel) |
      exact unbuffered_of (by decide +kernel) | exact room_of (by decide +kernel) |
      exact serving_of (by decide +kernel) | exact sound_of (by decide +kernel) | exact accepts_of (by decide +kernel) |
      exact reads_of (by decide +kernel) | decide +kernel

/-- A descriptor in the external window: not yet asked, asked, answered OK and answered ERR. -/
def extStarting (asked : Option Nat) (b : Option ExtAnswer) : State :=
  let s := at3 [] []
  s.setFigure 0 { s.figure 0 with queue := [{ figJob 40 with dptr := 0x40000000 }], descAsked := asked, descAnswer := b }

theorem witness_FigureUnitRuns_external_descriptor :
    (let s := extStarting none none
     let j := { figJob 40 with dptr := 0x40000000 }
     (s.figure 0).running = none ∧ (s.figure 0).queue = j :: [] ∧ figPlace j.eng j.dptr 64 = some (.ext 0x40000000) ∧
     allowed j.pr j.ring j.dptr 64 needR = true ∧ (s.figure 0).descAnswer = none ∧ (s.figure 0).descAsked ≠ some 0x40000000) ∧
    ((extStarting (some 0x40000000) none).figure 0).descAsked = some 0x40000000 ∧
    (let b : ExtAnswer := { adr := 0x40000000, len := 64, write := false, ok := true, bytes := wordBytes (figDesc 0 0) }
     ((extStarting (some 0x40000000) (some b)).figure 0).descAnswer = some b ∧ b.ok = true ∧
     (figNew { figJob 40 with dptr := 0x40000000 } 0 (descWords 16 b.bytes)).descOk = true) ∧
    (let b : ExtAnswer := { adr := 0x40000000, len := 64, write := false, ok := false, bytes := [] }
     ((extStarting (some 0x40000000) (some b)).figure 0).descAnswer = some b ∧ b.ok = false) := by
    repeat' with_reducible apply And.intro
    all_goals first | exact ready_of (by decide +kernel) | exact issues_of (by decide +kernel) |
      exact branch_ready_of (by decide +kernel) | exact muldiv_of (by decide +kernel) |
      exact owns_of (by decide +kernel) | exact plain_of (by decide +kernel) | exact tops_of (by decide +kernel) |
      exact mem_of (by decide +kernel) | exact clean_of (by decide +kernel) |
      exact unbuffered_of (by decide +kernel) | exact room_of (by decide +kernel) |
      exact serving_of (by decide +kernel) | exact sound_of (by decide +kernel) | exact accepts_of (by decide +kernel) |
      exact reads_of (by decide +kernel) | decide +kernel

/-- A figure whose descriptor is in the external window at its end: its results not yet sent, on their way, and answered; an
aborted figure that ended early. -/
theorem witness_FigureUnitRuns_external_end :
    (let r := { figRun 40 with job := { figJob 40 with dptr := 0x40000000 }, addr := none }
     let s := figuring r
     (s.figure 0).running = some r ∧ r.closing = none ∧ r.addr = none ∧ r.qs = [] ∧ r.fault = none ∧
     figPlace r.job.eng (r.job.dptr + 0x34) 12 = some (.ext 0x40000034) ∧ r.word 0 / 2 ^ 16 % 8 = 0) ∧
    (let r := { figRun 40 with addr := none, closing := some (23, false) }
     ((figuring r).figure 0).running = some r ∧ r.fault = none ∧ r.job.vl ≤ 1024 ∧ r.word 0 / 2 ^ 16 % 8 = 0) ∧
    (let r := { figRun 40 with addr := none, closing := some (23, true), ended := true }
     ((figuring r).figure 0).running = some r ∧ r.fault = none ∧ r.issued < r.needed) := by
    repeat' with_reducible apply And.intro
    all_goals first | exact ready_of (by decide +kernel) | exact issues_of (by decide +kernel) |
      exact branch_ready_of (by decide +kernel) | exact muldiv_of (by decide +kernel) |
      exact owns_of (by decide +kernel) | exact plain_of (by decide +kernel) | exact tops_of (by decide +kernel) |
      exact mem_of (by decide +kernel) | exact clean_of (by decide +kernel) |
      exact unbuffered_of (by decide +kernel) | exact room_of (by decide +kernel) |
      exact serving_of (by decide +kernel) | exact sound_of (by decide +kernel) | exact accepts_of (by decide +kernel) |
      exact reads_of (by decide +kernel) | decide +kernel

/-! ### Witnesses: memories, control stores, starts -/

/-- Unit `k` scrubbing at the entry before the last one of memory `m`, or at the last. -/
def scrubbing (k m lastE : Nat) : State :=
  let s := putL (at3 [] []) [(Adr.TIL_SCRUB k, Bits.TIL_SCRUB_EN, 1), (Adr.BLK_LIBSCRUB, Bits.BLK_LIBSCRUB_EN, 1)]
  { s with poreset := false, scrubs := [(48 * k + m, (scrubSize k m).getD 1 - lastE)]
           scrubbed := [(k, 2 ^ scrubPointers k - 1 - 2 ^ m)] }

/-- A scrub of unit `k`'s memory `m` that has `lastE` entries to go. -/
def scrubB (k m lastE : Nat) : Bool :=
  let s := scrubbing k m lastE
  let p := mget 0 s.scrubs (48 * k + m)
  decide ((scrubSize k m).isSome = true ∧ p + lastE = (scrubSize k m).getD 0 ∧ s.poreset = false ∧
    s.memErr (scrubAdr k m p) = false ∧
    (∀ i, i < codeSize (scrubAdr k m p) → s.codeStat (scrubAdr k m p + i) = .clean) ∧
    (k < 12 → s.get (Adr.TIL_SCRUB k) Bits.TIL_SCRUB_EN = 1 ∧ s.sleep k < 2) ∧
    (k = 12 → s.get Adr.BLK_LIBSCRUB Bits.BLK_LIBSCRUB_EN = 1 ∧ s.standby = false) ∧
    putBits (mget 0 s.scrubbed k) m 1 1 = 2 ^ scrubPointers k - 1)

/-- A mode, and unit `k` busy with a GO word or not. -/
def marchState (k mode busy op go : Nat) : State :=
  let s := putL (at3 [] []) [(Adr.BLK_MODE, Bits.BLK_MODE_MODE, mode), (unitMarchst k, Bits.TIL_MARCHST_BUSY, busy),
    (unitMarchst k, Bits.TIL_MARCHST_OP, op)]
  { s with marches := [(k, BitVec.ofNat 32 (go + op * 2 ^ 28))] }

/-- A GO word that a tile or the library refuses, by its clauses. -/
def goRefused (v : Word) (op mode busy : Nat) : Bool :=
  decide (v.toNat / 2 ^ 26 % 2 ^ 2 = 3 ∨ (op = 2 ∧ mode ≠ 2 ∧ mode ≠ 3) ∨ (op = 3 ∧ 30 < v.toNat / 2 ^ 17 % 2 ^ 5) ∨ busy = 1)

def libRefused (v : Word) (op mode busy : Nat) : Bool :=
  decide ((op = 2 ∧ mode ≠ 2 ∧ mode ≠ 3) ∨ (op = 4 ∧ (v.getLsbD 23 = true ∨ 8191 < v.toNat % 2 ^ 14)) ∨ busy = 1)

/-- Scrubs of the first and the last memories; a write-back; GO words taken and refused by a tile and by the library. -/
theorem witness_MemoriesAndControlStores_scrub_and_go :
    (scrubB 0 0 2 = true ∧ scrubB 11 46 1 = true ∧ scrubB 12 15 1 = true ∧ scrubB 12 0 2 = true) ∧
    (let s : State := { at3 [] [] with writebacks := [0x10005000], marks := [(0x10005000, { flips := 1 })] }
     s.writebacks = 0x10005000 :: [] ∧ codeBase 0x10005000 = 0x10005000 ∧ s.codeStat 0x10005000 ≠ .clean) ∧
    (let s := marchState 3 2 0 0 0
     Accepts s .host .r0 3 0 (Adr.TIL_MARCH 3) ∧ s.mode = 2 ∧ (s.power 3).check.isSome = false ∧
     s.get (Adr.TIL_MARCHST 3) Bits.TIL_MARCHST_BUSY = 0 ∧ goRefused 0x003C0000 1 2 0 = false ∧
     goRefused 0x003C0000 2 2 0 = false ∧ goRefused 0x003C0000 3 2 0 = false ∧ goRefused 0x003C0000 4 2 0 = false ∧
     goRefused 0x0C000000 1 2 0 = true ∧ goRefused 0x003E0000 3 2 0 = true) ∧
    (let s := marchState 3 4 1 0 0
     Accepts s .host .r0 3 0 (Adr.TIL_MARCH 3) ∧ s.mode = 4 ∧ s.get (Adr.TIL_MARCHST 3) Bits.TIL_MARCHST_BUSY = 1) ∧
    (let s := marchState 12 3 0 0 0
     Accepts s .host .r0 0 0 Adr.BLK_LIBMARCH ∧ s.mode = 3 ∧ s.get Adr.BLK_LIBMARCHST Bits.BLK_LIBMARCHST_BUSY = 0 ∧
     libRefused 0x00001FFF 1 3 0 = false ∧ libRefused 0x00001FFF 2 3 0 = false ∧ libRefused 0x00001FFF 4 3 0 = false ∧
     libRefused 0x00002000 4 3 0 = true ∧ libRefused 0x00800000 4 3 0 = true ∧ libRefused 0 2 4 0 = true) := by
    repeat' with_reducible apply And.intro
    all_goals first | exact ready_of (by decide +kernel) | exact issues_of (by decide +kernel) |
      exact branch_ready_of (by decide +kernel) | exact muldiv_of (by decide +kernel) |
      exact owns_of (by decide +kernel) | exact plain_of (by decide +kernel) | exact tops_of (by decide +kernel) |
      exact mem_of (by decide +kernel) | exact clean_of (by decide +kernel) |
      exact unbuffered_of (by decide +kernel) | exact room_of (by decide +kernel) |
      exact serving_of (by decide +kernel) | exact sound_of (by decide +kernel) | exact accepts_of (by decide +kernel) |
      exact reads_of (by decide +kernel) | decide +kernel

/-- Marches that end: with no fault, with one in a scratchpad, a bank and the library, repairs with and without a spare. -/
theorem witness_MemoriesAndControlStores_march :
    (∀ op ∈ [1, 2],
     let s := marchState 3 4 1 op 0x0800C005
     s.marching 3 = true ∧ s.marks = [] ∧ s.get (unitMarchst 3) Bits.TIL_MARCHST_OP = op) ∧
    (let s := marchState 3 4 1 1 0x08000000
     s.get (unitMarchst 3) Bits.TIL_MARCHST_OP = 1 ∧ meets 3 (mget 0 s.marches 3).toNat (47, 4095) = true ∧
     s.noSpare 3 (47, 4095) [(47, 4095)] = false ∧ meets 3 (mget 0 s.marches 3).toNat (15, 1023) = true ∧
     s.noSpare 3 (15, 1023) [(15, 1023)] = false) ∧
    (let s := marchState 12 0 1 1 0x00800000
     s.marching 12 = true ∧ s.get (unitMarchst 12) Bits.TIL_MARCHST_OP = 1 ∧
     meets 12 (mget 0 s.marches 12).toNat (15, 8191) = true ∧ s.mode = 0) ∧
    (let s := marchState 3 4 1 3 0x000A0000
     s.marching 3 = true ∧ s.get (unitMarchst 3) Bits.TIL_MARCHST_OP = 3 ∧ (s.freeBank 3).isSome = true) ∧
    (let s := marchState 3 4 1 4 0x00C00005
     s.marching 3 = true ∧ s.get (unitMarchst 3) Bits.TIL_MARCHST_OP = 4 ∧ s.freeSpare 3 3 = some 0 ∧ s.spareFor 3 3 5 = none) ∧
    (let s := putL (marchState 3 4 1 4 0x00C00005) ((List.range 16).map (fun i => (spareReg 3 3 i, ⟨31, 1⟩, 1)))
     s.marching 3 = true ∧ s.get (unitMarchst 3) Bits.TIL_MARCHST_OP = 4 ∧ s.freeSpare 3 3 = none) := by
    repeat' with_reducible apply And.intro
    all_goals first | exact ready_of (by decide +kernel) | exact issues_of (by decide +kernel) |
      exact branch_ready_of (by decide +kernel) | exact muldiv_of (by decide +kernel) |
      exact owns_of (by decide +kernel) | exact plain_of (by decide +kernel) | exact tops_of (by decide +kernel) |
      exact mem_of (by decide +kernel) | exact clean_of (by decide +kernel) |
      exact unbuffered_of (by decide +kernel) | exact room_of (by decide +kernel) |
      exact serving_of (by decide +kernel) | exact sound_of (by decide +kernel) | exact accepts_of (by decide +kernel) |
      exact reads_of (by decide +kernel) | decide +kernel

/-- Tile 3's control stores, busy with a command or not. -/
def ucTile (busy mask : Nat) : State :=
  putL (at3 [] []) [(Adr.UC_STAT 3, Bits.UC_STAT_BUSY, busy), (Adr.UC_MASK 3, Bits.UC_MASK_MASK, mask),
    (Adr.UC_GOLDV 3, ⟨0, 32⟩, 0x20100000), (Adr.UC_GOLDF 3, ⟨0, 32⟩, 0x20110000)]

def cmdRefused (v : Word) (busy mask : Nat) : Bool :=
  decide (busy = 1 ∨ v.toNat / 2 ^ 26 % 2 ^ 2 = 3 ∨ v.toNat / 2 ^ 4 % 2 ^ 11 < v.toNat / 2 ^ 15 % 2 ^ 11 ∨
    (v.toNat / 2 ^ 26 % 2 ^ 2 = 0 ∧ (0x3FF < v.toNat / 2 ^ 4 % 2 ^ 11 ∨ mask < 2)))

/-- Control store commands taken and refused, and one of each kind that completes over two words. -/
theorem witness_MemoriesAndControlStores_control_stores :
    (let s := ucTile 0 2
     Accepts s .host .r0 3 0 (Adr.UC_CMD 3) ∧ s.get (Adr.UC_STAT 3) Bits.UC_STAT_BUSY = 0 ∧
     s.get (Adr.UC_MASK 3) Bits.UC_MASK_MASK = 2 ∧ cmdRefused (BitVec.ofNat 32 (0x3FF * 16)) 0 2 = false ∧
     cmdRefused (BitVec.ofNat 32 (0x400 * 16)) 0 2 = true ∧ cmdRefused (BitVec.ofNat 32 (0x3FF * 16)) 0 1 = true ∧
     cmdRefused (BitVec.ofNat 32 (2 ^ 27 + 0x7FF * 16)) 0 0 = false ∧ cmdRefused (BitVec.ofNat 32 (3 * 2 ^ 26)) 0 2 = true ∧
     cmdRefused (BitVec.ofNat 32 (2 ^ 15)) 0 2 = true) ∧
    (∀ kind ∈ [0, 1, 2],
     let c : Word := BitVec.ofNat 32 (2 ^ 28 + kind * 2 ^ 26 + 7 * 2 ^ 15 + 8 * 2 ^ 4)
     let s : State := { ucTile 1 0xF00F with ucCmds := [(3, c)] }
     let gold (b : Nat) : Nat := if kind = 2 then (s.reg (Adr.UC_GOLDF 3)).toNat + 16 * b
       else (s.reg (Adr.UC_GOLDV 3)).toNat + kind * 0x1000 + 4 * b
     let n := if kind = 2 then 16 else 4
     s.get (Adr.UC_STAT 3) Bits.UC_STAT_BUSY = 1 ∧ (s.figure 3).running = none ∧ (mget 0 s.ucCmds 3) = c ∧
     c.toNat / 2 ^ 28 % 2 ^ 4 = 1 ∧ c.toNat / 2 ^ 26 % 2 ^ 2 = kind ∧ c.toNat / 2 ^ 15 % 2 ^ 11 = 7 ∧
     c.toNat / 2 ^ 4 % 2 ^ 11 = 8 ∧
     ∀ b, b < 9 → 7 ≤ b → inLibrary (gold b) = true ∧ inLibrary (gold b + n - 1) = true ∧ s.memErr (gold b) = false ∧
       ∀ i, i < n → s.codeStat (gold b + i) = .clean) := by
    repeat' with_reducible apply And.intro
    all_goals first | exact ready_of (by decide +kernel) | exact issues_of (by decide +kernel) |
      exact branch_ready_of (by decide +kernel) | exact muldiv_of (by decide +kernel) |
      exact owns_of (by decide +kernel) | exact plain_of (by decide +kernel) | exact tops_of (by decide +kernel) |
      exact mem_of (by decide +kernel) | exact clean_of (by decide +kernel) |
      exact unbuffered_of (by decide +kernel) | exact room_of (by decide +kernel) |
      exact serving_of (by decide +kernel) | exact sound_of (by decide +kernel) | exact accepts_of (by decide +kernel) |
      exact reads_of (by decide +kernel) | decide +kernel

/-- PORESET_N low or not, cold or not, fatal or not. -/
def starter (po cold : Bool) (fat mode : Nat) : State :=
  let s := putL (at3 [] []) [(Adr.BLK_MODE, Bits.BLK_MODE_FATAL, fat), (Adr.BLK_MODE, Bits.BLK_MODE_MODE, mode)]
  { s with poreset := po, boot := { s.boot with cold := cold }, plls := 0x7FFF }

/-- PLL locks as they stand, in Standby or not, at a step of the start. -/
def locking (plls stby bs mode : Nat) (waking : Bool) : State :=
  let s := putL (at3 [] []) [(Adr.BLK_MODE, Bits.BLK_MODE_MODE, mode), (Adr.BOOT_STAT, Bits.BOOT_STAT_STATE, bs),
    (Adr.MRG_BLKV, Bits.MRG_BLKV_VREQ, 30), (Adr.MRG_BLKV, Bits.MRG_BLKV_FLOOR, 30), (Adr.MRG_STBY, Bits.MRG_STBY_IN, stby)]
  { s with poreset := false, plls := plls, boot := { s.boot with waking := waking } }

/-- Power-up, a pin reset and a fatal block's; the PLLs' locks, the last of them in a start and in Standby; what the boot
control register refuses and takes. -/
theorem witness_ResetsAndStarts :
    ((starter false false 0 4).poreset = false ∧ (starter false false 0 4).boot.cold = false) ∧
    ((starter false true 0 4).fatal = false ∧ (starter false true 0 4).boot.cold = true) ∧
    ((starter true false 0 4).fatal = false ∧ (starter true false 0 4).boot.cold = false ∧ (starter true false 0 4).poreset = true) ∧
    ((starter true false 1 4).fatal = true ∧ (starter true false 1 4).poreset = true) ∧
    (let s := locking 3 0 0 0 false
     s.poreset = false ∧ s.standby = false ∧ s.mode = 0 ∧ s.fatal = false ∧ s.bootState = 0 ∧ putBits s.plls 2 1 1 % 8 = 7) ∧
    (let s := (locking 6 0 0 4 false).put (Adr.REEL_STAT 2) Bits.REEL_STAT_STATE reelDown
     s.mode ≠ 0 ∧ s.poreset = false ∧ s.standby = false ∧ s.reelState 2 = reelDown ∧ s.sleep (14 - 3) < 2 ∧ s.sleep (3 - 3) < 2) ∧
    (let s := locking 3 1 12 4 true
     s.poreset = false ∧ s.standby = true ∧ s.boot.waking = true ∧
     s.get Adr.MRG_BLKV Bits.MRG_BLKV_FLOOR ≤ s.get Adr.MRG_BLKV Bits.MRG_BLKV_VREQ ∧ putBits s.plls 2 1 1 % 8 = 7 ∧
     putBits s.plls 0 1 1 % 8 ≠ 7) ∧
    (let s := locking 7 0 10 0 false
     Accepts s .host .r0 0 0 Adr.BLK_BOOTCTL ∧ s.mode = 0 ∧ s.bootState = 10 ∧ s.boot.tried = []) ∧
    (let s := locking 7 0 11 0 false
     Accepts s .host .r0 0 0 Adr.BLK_BOOTCTL ∧ s.mode = 0 ∧ s.bootState = 11) ∧
    (let s := locking 7 0 12 4 false
     Accepts s .host .r0 0 0 Adr.BLK_BOOTCTL ∧ s.mode ≠ 0 ∧ s.fatal = false) ∧
    (let s := starter false false 1 4
     Accepts s (.engine 3) .r0 0 0 Adr.BLK_BOOTCTL ∧ s.fatal = true) := by
    repeat' with_reducible apply And.intro
    all_goals first | exact ready_of (by decide +kernel) | exact issues_of (by decide +kernel) |
      exact branch_ready_of (by decide +kernel) | exact muldiv_of (by decide +kernel) |
      exact owns_of (by decide +kernel) | exact plain_of (by decide +kernel) | exact tops_of (by decide +kernel) |
      exact mem_of (by decide +kernel) | exact clean_of (by decide +kernel) |
      exact unbuffered_of (by decide +kernel) | exact room_of (by decide +kernel) |
      exact serving_of (by decide +kernel) | exact sound_of (by decide +kernel) | exact accepts_of (by decide +kernel) |
      exact reads_of (by decide +kernel) | decide +kernel

/-! ### Witnesses: the boot sequencer, debug, ports -/

/-- Bytes written into the zeros of a header: place, number, value. -/
def headerOf (l : List (Nat × Nat × Nat)) : List Byte :=
  l.foldl (fun h x => h.take x.1 ++ leBytes x.2.1 x.2.2 ++ h.drop (x.1 + x.2.1)) (List.replicate 0x1000 0)

/-- Three sections: MEM at 0x20300000 of 8 bytes, LIMITS of none (type 1), TABLES of 192 bytes (type 4). -/
def header0 : List Byte := headerOf [(0, 4, 0x534B4430), (4, 2, 1), (8, 4, 0x00C00201), (0xC, 4, 0x02001234), (0x14, 4, 0x77),
  (0x18, 4, 0x2000), (0x1C, 1, 3), (0x1E, 1, 1), (0x20, 2, 5), (0x100, 1, 2), (0x104, 4, 0x1000), (0x108, 4, 8),
  (0x10C, 4, 0x20300000), (0x130, 1, 1), (0x134, 4, 0x1000), (0x160, 1, 4), (0x164, 4, 0x1000), (0x168, 4, 192)]

/-- Entry `i` with the digest `d`. -/
def digested (h : List Byte) (i : Nat) (d : List Byte) : List Byte :=
  h.take (0x110 + 48 * i) ++ d ++ h.drop (0x110 + 48 * i + 32)

/-- The sequencer at a step of a start of a kind. -/
def booting (bs kind : Nat) (h : List Byte) : State :=
  let s := putL State.reset ((List.range 12).map (fun t => (Adr.MRG_TSTAT t, Bits.MRG_TSTAT_SLEEP, 0)))
  let s := putL s [(Adr.BLK_MODE, Bits.BLK_MODE_MODE, 0), (Adr.BOOT_STAT, Bits.BOOT_STAT_STATE, bs),
    (Adr.BOOT_STAT, Bits.BOOT_STAT_KIND, kind), (Adr.BOOT_STRAP, ⟨0, 32⟩, 0), (Adr.BOOT_FSIZE, ⟨0, 32⟩, 0x10000)]
  { s with poreset := false, plls := 0x7FFF, boot := { s.boot with cold := false, header := h } }

def runsB (s : State) : Bool := decide (s.mode = 0 ∧ s.fatal = false ∧ s.poreset = false ∧ s.standby = false)

/-- SHA-256 of no bytes and of three bytes (FIPS 180-4's examples; R617). -/
theorem test_sha256_empty : sha256 [] = [0xe3, 0xb0, 0xc4, 0x42, 0x98, 0xfc, 0x1c, 0x14, 0x9a, 0xfb, 0xf4, 0xc8, 0x99, 0x6f,
    0xb9, 0x24, 0x27, 0xae, 0x41, 0xe4, 0x64, 0x9b, 0x93, 0x4c, 0xa4, 0x95, 0x99, 0x1b, 0x78, 0x52, 0xb8, 0x55] := by
  decide +kernel

theorem test_sha256_abc : sha256 [0x61, 0x62, 0x63] = [0xba, 0x78, 0x16, 0xbf, 0x8f, 0x01, 0xcf, 0xea, 0x41, 0x41, 0x40, 0xde,
    0x5d, 0xae, 0x22, 0x23, 0xb0, 0x03, 0x61, 0xa3, 0x96, 0x17, 0x7a, 0x9c, 0xb4, 0x10, 0xff, 0x61, 0xf2, 0x00, 0x15, 0xad] := by
  decide +kernel

/-- Headers that fail each check up to the signature's key, by their reasons; a source that is not a digest of the key fails
with reason 7 unless the trust anchor is that digest. -/
theorem witness_BootSequenceAndTileRestart_header :
    headerReason [] none = some 3 ∧ headerReason (headerOf [(0, 4, 0x534B4430)]) none = some 4 ∧
    headerReason (header0.take 8 ++ 0 :: header0.drop 9) none = some 5 ∧
    headerReason (header0.take 0xF ++ 1 :: header0.drop 0x10) none = some 6 ∧
    (hdrFormat header0 && tableOk header0 (some 0x8000)) = true := by
    repeat' with_reducible apply And.intro
    all_goals first | exact ready_of (by decide +kernel) | exact issues_of (by decide +kernel) |
      exact branch_ready_of (by decide +kernel) | exact muldiv_of (by decide +kernel) |
      exact owns_of (by decide +kernel) | exact plain_of (by decide +kernel) | exact tops_of (by decide +kernel) |
      exact mem_of (by decide +kernel) | exact clean_of (by decide +kernel) |
      exact unbuffered_of (by decide +kernel) | exact room_of (by decide +kernel) |
      exact serving_of (by decide +kernel) | exact sound_of (by decide +kernel) | exact accepts_of (by decide +kernel) |
      exact reads_of (by decide +kernel) | decide +kernel

/-- A header passes where the trust anchor is the digest of its key and the signature is good. -/
theorem witness_BootSequenceAndTileRestart_passes
    (ha : shaWords ((header0.drop 0x40).take 64) = anchorWords)
    (hv : Config.ecdsaVerify ((header0.drop 0x40).take 64) (sha256 (header0.take 0xD00)) ((header0.drop 0xD00).take 64) = true) :
    headerReason header0 (some 0x8000) = none := by
  have h1 : hdr header0 0 4 = 0x534B4430 := by decide +kernel
  have h2 : hdrFormat header0 = true := by decide +kernel
  have h3 : hdr header0 8 4 = 0x00C00201 := by decide +kernel
  have h4 : hdr header0 0x0F 1 = 2 := by decide +kernel
  have h5 : tableOk header0 (some 0x8000) = true := by decide +kernel
  simp [headerReason, h1, h2, h3, h4, h5, ha, hv]

/-- Discovery, good and not, from either half; headers of attempts; sections read, not read, wrong and right; register entries
forbidden and none; keepers to wait for and none. -/
theorem witness_BootSequenceAndTileRestart :
    (let s := booting 2 1 []
     runsB s = true ∧ s.bootState = 2 ∧ s.boot.tried = [] ∧ s.boot.ext = false ∧ s.strapAlt = false) ∧
    (let s := booting 3 1 []
     runsB s = true ∧ s.bootState = 3 ∧ s.boot.wrote = [] ∧ s.halfFlash = some 0x8000) ∧
    (let s := booting 4 0 header0
     runsB s = true ∧ s.bootState = 4 ∧ (loadOrder s.boot.header)[s.boot.next]? = some 0 ∧ s.boot.wrote = [] ∧
     (sectionAt s.boot.header 0).type = 2) ∧
    (let l : List Byte := [5, 6, 7, 8, 9, 10, 11, 12]
     let s := booting 4 0 (digested header0 0 (sha256 l))
     let x := sectionAt s.boot.header 0
     runsB s = true ∧ s.bootState = 4 ∧ (loadOrder s.boot.header)[s.boot.next]? = some 0 ∧ x.type = 2 ∧ l.take x.len = l ∧
     sha256 l = x.digest ∧ Sound s ∧ ∀ k, k < 8 → inChannels (x.dest + k) = false) ∧
    (let s := booting 4 0 (digested header0 1 (sha256 []))
     let s : State := { s with boot := { s.boot with next := 1 } }
     let x := sectionAt s.boot.header 1
     (loadOrder s.boot.header)[s.boot.next]? = some 1 ∧ x.type ≠ 2 ∧ x.len = 0 ∧ sha256 [] = x.digest) ∧
    (let s := booting 4 0 header0
     let s : State := { s with boot := { s.boot with next := 1 } }
     (loadOrder s.boot.header)[s.boot.next]? = some 1 ∧ (sectionAt s.boot.header 1).type ≠ 2 ∧
     sha256 [] ≠ (sectionAt s.boot.header 1).digest) ∧
    (let s := booting 5 2 header0
     let s := (List.range 12).foldl (fun s t => s.setPower t { s.power t with check := some (false, check0 12) }) s
     runsB s = true ∧ s.bootState = 5 ∧ s.quickDone = true ∧ s.startKind = 2 ∧ s.heldOf 5 = [] ∧
     (s.heldOf 1).flatMap regsEntries = [] ∧ s.tileFenced 3 = false) ∧
    (let s := booting 5 2 header0
     let s := (List.range 12).foldl (fun s t => s.setPower t { s.power t with check := some (false, check0 12) }) s
     let s : State := { s with boot := { s.boot with held := [(1, leBytes 4 Adr.BLK_BOOTCTL ++ List.replicate 12 0)] } }
     s.quickDone = true ∧ s.heldOf 5 = [] ∧
     ((s.heldOf 1).flatMap regsEntries).map (fun e => (s.skipsEntry e, bootForbidden e.adr)) = [(false, true)]) ∧
    (let s := booting 7 1 header0
     runsB s = true ∧ s.bootState = 7 ∧ s.keepers ≠ [] ∧ s.keepers = [0, 2] ∧
     (∀ t, t < 12 → s.bit Adr.BOOT_KREADY t = false)) ∧
    (let s := booting 7 1 (headerOf [])
     runsB s = true ∧ s.bootState = 7 ∧ s.keepers = []) ∧
    (let s := (booting 8 1 header0).setBit Adr.BOOT_KREADY 2
     let s := (s.modEng 0 (fun e => { e with arch := { e.arch with psw := 1 } })).modEng 1
       (fun e => { e with arch := { e.arch with psw := 0x20001 } })
     runsB s = true ∧ s.bootState = 8 ∧ s.targetCode (.engine 0) Adr.BOOT_KDONE true = .ok ∧ s.ringOf (.engine 0) = 0 ∧
     s.keepers = [0, 2] ∧ s.bit Adr.BOOT_KREADY 2 = true ∧ s.targetCode (.engine 1) Adr.BOOT_KDONE true = .ok ∧
     s.ringOf (.engine 1) ≠ 0) := by
    repeat' with_reducible apply And.intro
    all_goals first | exact ready_of (by decide +kernel) | exact issues_of (by decide +kernel) |
      exact branch_ready_of (by decide +kernel) | exact muldiv_of (by decide +kernel) |
      exact owns_of (by decide +kernel) | exact plain_of (by decide +kernel) | exact tops_of (by decide +kernel) |
      exact mem_of (by decide +kernel) | exact clean_of (by decide +kernel) |
      exact unbuffered_of (by decide +kernel) | exact room_of (by decide +kernel) |
      exact serving_of (by decide +kernel) | exact sound_of (by decide +kernel) | exact accepts_of (by decide +kernel) |
      exact reads_of (by decide +kernel) | decide +kernel

/-- A tile to restart, the image's identity known; no section is for tile 3, and tile 3 has no keeper. -/
theorem witness_BootSequenceAndTileRestart_tile :
    (let s := putL (at3 [] []) [(Adr.BOOT_IMGID, ⟨0, 32⟩, 0x77)]
     let s : State := { s with poreset := false, boot := { s.boot with restarts := [3, 5] } }
     s.mode ≠ 0 ∧ s.fatal = false ∧ s.boot.restarts = 3 :: s.boot.restarts.drop 1 ∧ s.tileFenced 3 = false ∧ s.sleep 3 ≠ 3 ∧
     headerReason [] s.halfFlash = some 3 ∧ s.changing 3 = false ∧ hdr header0 0x14 4 = (s.reg Adr.BOOT_IMGID).toNat ∧
     getBit (hdr header0 0x20 2) 3 = false) ∧
    (let h := headerOf [(0x1C, 1, 1), (0x100, 1, 2), (0x10C, 4, 0x20300000)]
     (sections h).all (fun x => !x.forTile 3) = true ∧ getBit (hdr h 0x20 2) 3 = false) := by
    repeat' with_reducible apply And.intro
    all_goals first | exact ready_of (by decide +kernel) | exact issues_of (by decide +kernel) |
      exact branch_ready_of (by decide +kernel) | exact muldiv_of (by decide +kernel) |
      exact owns_of (by decide +kernel) | exact plain_of (by decide +kernel) | exact tops_of (by decide +kernel) |
      exact mem_of (by decide +kernel) | exact clean_of (by decide +kernel) |
      exact unbuffered_of (by decide +kernel) | exact room_of (by decide +kernel) |
      exact serving_of (by decide +kernel) | exact sound_of (by decide +kernel) | exact accepts_of (by decide +kernel) |
      exact reads_of (by decide +kernel) | decide +kernel

/-- The debug master idle, or with a command and its answer. -/
def master (cmd : Option Nat) : State :=
  let s := putL (at3 [] []) [(Adr.RLY_HOSTPC, ⟨0, 32⟩, 1)]
  { s with poreset := false, plls := 0x7FFF, master := { s.master with
      cmd := cmd, ans := if cmd.isSome then some { data := 77 } else none, lastAdr := 0x1234, last := { code := .err, data := 0x99 } } }

/-- Cells of the boundary, modes for EXTEST; accesses that start, in memory, remote, misaligned; HALT of a fenced engine and of
one in a sleeping tile; trigger writes; post boxes full and empty, from each side. -/
theorem witness_DebugAccess :
    ((master none).put Adr.BLK_MODE Bits.BLK_MODE_MODE 2).mode = 2 ∧ (master none).mode ≠ 2 ∧
    (let s := master (some 5)
     s.master.cmd = some 5 ∧ s.master.ans = some { data := 77 }) ∧
    (let s := master none
     s.master.cmd = none ∧ s.portCode .debug 0x10005FF8 false = .ok ∧ s.portCode .debug 0x10005FF8 true = .ok ∧
     (0x10005FF8 : Nat) % 2 ^ 3 = 0 ∧ spanOf 0x10005FF8 8 = .mem ∧ s.memErr 0x10005FF8 = false ∧
     (∀ i, i < 8 → s.codeStat (0x10005FF8 + i) = .clean) ∧ s.writeErr 0x10005FF8 8 = false ∧ Sound s ∧
     (0x10005FF9 : Nat) % 2 ^ 1 ≠ 0 ∧ s.portCode .debug 0x10005FF9 true = .ok ∧
     s.portCode .debug 0xC0000000 false = .ok ∧ spanOf 0xC0000000 4 = .remote) ∧
    (let s := (master none).put Adr.FLT_FTILE ⟨0, 1⟩ 1
     Accepts s .debug .dbg 0 0 (Adr.DBG_ECTL 3) ∧ s.tileFenced (tileOf 3) = true) ∧
    (let s := master none
     Accepts s .debug .dbg 0 0 (Adr.DBG_ECTL 3) ∧ s.engFenced 3 = false ∧ s.tileFenced (tileOf 3) = false ∧
     Accepts s .debug .dbg 0 0 (Adr.DBG_TRG_CTL 0 1 + 4 * 0) ∧ Accepts s .debug .dbg 0 0 (Adr.DBG_TRG_CTL 11 3 + 4 * 2) ∧
     s.targetCode .debug (Adr.DBG_PB_IN 3) true = .ok ∧ s.targetCode .host (Adr.DBG_PB_IN 3) true = .ok ∧
     s.get (Adr.DBG_PB_STAT 3) Bits.DBG_PB_STAT_INFULL = 0 ∧ Reads s (.engine 3) (Adr.DBG_PB_IN 3) ∧
     Reads s .debug (Adr.DBG_PB_IN 3) ∧ s.targetCode (.engine 3) (Adr.DBG_PB_OUT 3) true = .ok ∧
     s.get (Adr.DBG_PB_STAT 3) Bits.DBG_PB_STAT_OUTFULL = 0 ∧ s.targetCode (.engine 3) (Adr.DBG_PB_OUT 4) true = .ok) ∧
    (let s := putL (master none) [(Adr.DBG_PB_STAT 3, Bits.DBG_PB_STAT_INFULL, 1), (Adr.DBG_PB_STAT 3, Bits.DBG_PB_STAT_OUTFULL, 1)]
     s.targetCode .debug (Adr.DBG_PB_IN 3) true = .ok ∧ s.get (Adr.DBG_PB_STAT 3) Bits.DBG_PB_STAT_INFULL = 1 ∧
     s.targetCode (.engine 3) (Adr.DBG_PB_OUT 3) true = .ok ∧ s.get (Adr.DBG_PB_STAT 3) Bits.DBG_PB_STAT_OUTFULL = 1) := by
    repeat' with_reducible apply And.intro
    all_goals first | exact ready_of (by decide +kernel) | exact issues_of (by decide +kernel) |
      exact branch_ready_of (by decide +kernel) | exact muldiv_of (by decide +kernel) |
      exact owns_of (by decide +kernel) | exact plain_of (by decide +kernel) | exact tops_of (by decide +kernel) |
      exact mem_of (by decide +kernel) | exact clean_of (by decide +kernel) |
      exact unbuffered_of (by decide +kernel) | exact room_of (by decide +kernel) |
      exact serving_of (by decide +kernel) | exact sound_of (by decide +kernel) | exact accepts_of (by decide +kernel) |
      exact reads_of (by decide +kernel) | decide +kernel

/-- The host port with requests held and the memory master port with responses due. -/
def ported (h : List HostReq) (w : List MmReq) (o : List (Nat × MmOut)) : State :=
  { at3 [] [] with poreset := false, plls := 0x7FFF, host := h, hostId := 9, mmWait := w, mmOut := o }

def mmreq (wr : Bool) : MmReq := { who := .port .host 4 8, write := wr, adr := 0x50000018, len := 8 }

/-- Requests of the host not taken, with no place, misaligned, to memory at its last bytes and outside; responses of each code. -/
theorem witness_PortsAndRegisterAccess_host :
    (let s := ported (List.replicate 8 { id := 1, adr := 0, size := 4 }) [] []
     s.readWait = [] ∧ 8 ≤ s.host.length) ∧
    (let s := ported [{ id := 9, adr := 0, size := 4 }] [] []
     s.readWait = [] ∧ s.poreset = false ∧ s.host.length < 8 ∧ (∀ i, i < s.host.length → (s.host.getD i { id := 99, adr := 0, size := 4 }).id ≤ s.hostId) ∧
     (s.put Adr.BLK_MODE Bits.BLK_MODE_MODE 0).portCode .host 0x10005FF8 true ≠ .ok ∧ s.portCode .host 0x10005FF8 false = .ok ∧ (0x10005FFA : Nat) % 2 ^ 2 ≠ 0 ∧
     s.portCode .host 0x10005FFA false = .ok ∧ spanOf 0x10005FF8 8 = .mem ∧ s.memErr 0x10005FF8 = false ∧
     (∀ i, i < 8 → s.codeStat (0x10005FF8 + i) = .clean) ∧ s.portCode .host 0x10005FF8 true = .ok ∧
     s.writeErr 0x10005FF8 8 = false ∧ Sound s ∧ (∀ i, i < 8 → inChannels (0x10005FF8 + i) = false) ∧
     s.portCode .host 0x50000018 true = .ok ∧ spanOf 0x50000018 8 = .ext) ∧
    (∀ c ∈ [Code.ok, .err, .notReady],
     (ported [{ id := 9, adr := 0, size := 4, done := some (c, 7) }] [] []).host =
       { id := 9, adr := 0, size := 4, done := some (c, 7) } :: []) ∧
    (ported [{ id := 9, adr := 0, size := 4 }] [] []).host = { id := 9, adr := 0, size := 4 } :: [] := by
    repeat' with_reducible apply And.intro
    all_goals first | exact ready_of (by decide +kernel) | exact issues_of (by decide +kernel) |
      exact branch_ready_of (by decide +kernel) | exact muldiv_of (by decide +kernel) |
      exact owns_of (by decide +kernel) | exact plain_of (by decide +kernel) | exact tops_of (by decide +kernel) |
      exact mem_of (by decide +kernel) | exact clean_of (by decide +kernel) |
      exact unbuffered_of (by decide +kernel) | exact room_of (by decide +kernel) |
      exact serving_of (by decide +kernel) | exact sound_of (by decide +kernel) | exact accepts_of (by decide +kernel) |
      exact reads_of (by decide +kernel) | decide +kernel

/-- Requests with the port disabled, with the lowest tag free and with the last one, beats, a stray response, and one that is
due, timed out or not. -/
theorem witness_PortsAndRegisterAccess_master :
    (let s := (ported [] [mmreq true] []).put Adr.BLK_MMCFG Bits.BLK_MMCFG_EN 0
     s.mode ≠ 0 ∧ s.standby = false ∧ s.fatal = false ∧ s.poreset = false ∧ s.mmWait = mmreq true :: [] ∧
     s.get Adr.BLK_MMCFG Bits.BLK_MMCFG_EN = 0 ∧ (mmreq true).who = .port .host 4 8) ∧
    (let o : MmOut := { req := { mmreq false with adr := 0x50001000 } }
     let s := (ported [] [mmreq true] ((List.range 15).map (fun y => (mmKey true y, o)))).put Adr.BLK_MMCFG Bits.BLK_MMCFG_EN 1
     s.mode ≠ 0 ∧ s.mmWait = mmreq true :: [] ∧ s.get Adr.BLK_MMCFG Bits.BLK_MMCFG_EN = 1 ∧
     (∀ y, y < 15 → mhas s.mmOut (mmKey true y) = true) ∧ mhas s.mmOut (mmKey true 15) = false ∧
     (mmreq true).adr + (mmreq true).len ≤ o.req.adr) ∧
    (let s : State := { ported [] [] [] with mmBeats := [(3, 1), (4, 2)] }
     s.poreset = false ∧ s.mmBeats = (3, 1) :: [(4, 2)] ∧ mhas s.mmOut (mmKey false 63) = false) ∧
    ({ ported [] [] [] with poreset := true } : State).poreset = true ∧
    (∀ wr ∈ [true, false],
     let o : MmOut := { req := mmreq wr }
     let s := ported [] [] [(mmKey wr (15 : BitVec 6).toNat, o)]
     s.mmOut = [(mmKey wr (15 : BitVec 6).toNat, o)] ∧ o.req.who = .port .host 4 8 ∧ o.req.write = wr ∧ o.dead = false ∧ o.got = [] ∧
     o.bad = false ∧ (o.req.adr % 32 + o.req.len + 31) / 32 = 1) ∧
    ({ req := mmreq true, dead := true } : MmOut).dead = true := by
    repeat' with_reducible apply And.intro
    all_goals first | exact ready_of (by decide +kernel) | exact issues_of (by decide +kernel) |
      exact branch_ready_of (by decide +kernel) | exact muldiv_of (by decide +kernel) |
      exact owns_of (by decide +kernel) | exact plain_of (by decide +kernel) | exact tops_of (by decide +kernel) |
      exact mem_of (by decide +kernel) | exact clean_of (by decide +kernel) |
      exact unbuffered_of (by decide +kernel) | exact room_of (by decide +kernel) |
      exact serving_of (by decide +kernel) | exact sound_of (by decide +kernel) | exact accepts_of (by decide +kernel) |
      exact reads_of (by decide +kernel) | decide +kernel

/-- Every count can be read, and the registers that a plain write changes can be written. -/
theorem witness_PortsAndRegisterAccess_registers :
    (let s := ported [] [] []
     Reads s .debug (Adr.ANG_CMP_STAT 11 15) ∧ Reads s .host (Adr.ANG_CMP_STAT 0 0) ∧ Reads s .host (Adr.ANG_PWCNT 2) ∧
     Reads s .host (Adr.REEL_EXSTAT 7) ∧ Reads s .host (Adr.REEL_CNT 7) ∧ Reads s .host (Adr.REEL_EXDROP 7) ∧
     Reads s .host (Adr.CAL_LOSTEV 3) ∧ Reads s .host (Adr.TIL_MEMCNT 3) ∧ Reads s .host Adr.BLK_LIBCNT ∧
     Reads s .host (Adr.UC_CNT 3) ∧ Reads s .host Adr.RLY_RDSTAT ∧ Reads s .host (Adr.RLY_CNT 1) ∧ Reads s .host Adr.FLT_CNT ∧
     Reads s .host (Adr.TIL_KCALL 3) ∧ Reads s .host (Adr.DBG_TPTR 3) ∧ Reads s .host Adr.BLK_MMSTAT ∧ s.mmOut.length < 32 ∧
     Accepts s .host .r0 3 0 (Adr.TIL_VBASE 3)) ∧
    (let s := ported [] [] []
     inRegSpace 0x10000000 = false ∧ s.targetCode .host 0x300FFFF8 true = .ok ∧ regRef 0x300FFFF8 = none) ∧
    (let s := ported [] [] []
     (regRef (Adr.MRG_TPLAN 3)).any (fun r => inRegSpace (Adr.MRG_TPLAN 3) && decide (r.adr = Adr.MRG_TPLAN 3) &&
       decide (r.row.act = .plain) && !r.row.group && r.row.fits 4 && !r.view && decide (r.unit = 3)) = true ∧
     Accepts s .host .r0 3 0 (Adr.MRG_TPLAN 3)) := by
    repeat' with_reducible apply And.intro
    all_goals first | exact ready_of (by decide +kernel) | exact issues_of (by decide +kernel) |
      exact branch_ready_of (by decide +kernel) | exact muldiv_of (by decide +kernel) |
      exact owns_of (by decide +kernel) | exact plain_of (by decide +kernel) | exact tops_of (by decide +kernel) |
      exact mem_of (by decide +kernel) | exact clean_of (by decide +kernel) |
      exact unbuffered_of (by decide +kernel) | exact room_of (by decide +kernel) |
      exact serving_of (by decide +kernel) | exact sound_of (by decide +kernel) | exact accepts_of (by decide +kernel) |
      exact reads_of (by decide +kernel) | decide +kernel

theorem witness_EveryStepKeepsTheMemoryForm : Memory.wf State.reset.mem = true ∧
    Memory.wf (memWrite State.reset.mem 0x10000000 [1, 2, 0, 3]) = true := by
    repeat' with_reducible apply And.intro
    all_goals first | exact ready_of (by decide +kernel) | exact issues_of (by decide +kernel) |
      exact branch_ready_of (by decide +kernel) | exact muldiv_of (by decide +kernel) |
      exact owns_of (by decide +kernel) | exact plain_of (by decide +kernel) | exact tops_of (by decide +kernel) |
      exact mem_of (by decide +kernel) | exact clean_of (by decide +kernel) |
      exact unbuffered_of (by decide +kernel) | exact room_of (by decide +kernel) |
      exact serving_of (by decide +kernel) | exact sound_of (by decide +kernel) | exact accepts_of (by decide +kernel) |
      exact reads_of (by decide +kernel) | decide +kernel

/-! ### Witnesses: starts and ports, the other paths -/

/-- A fenced reel and a fenced port through a reset; the supplies good and one of them bad; a PLL of a tile; a tile whose
restart waits for nothing. -/
theorem witness_ResetsAndStarts_fences :
    (let s := putL (starter true false 0 4) [(Adr.FLT_FPORT, ⟨7, 1⟩, 1), (Adr.FLT_FPORT, ⟨11, 1⟩, 1)]
     s.fatal = false ∧ s.boot.cold = false ∧ s.poreset = true ∧ s.reelFenced 7 = true ∧ s.rlyIsFenced 3 = true) ∧
    ((true && true && false) = false) ∧
    (let s := putL (at3 [] []) [(Adr.BOOT_IMGID, ⟨0, 32⟩, 0x77)]
     let s : State := { s with poreset := false, boot := { s.boot with restarts := [3, 5] } }
     s.poreset = false ∧ s.marching 3 = false ∧ s.changing 3 = false) := by
    repeat' with_reducible apply And.intro
    all_goals first | exact ready_of (by decide +kernel) | exact issues_of (by decide +kernel) |
      exact branch_ready_of (by decide +kernel) | exact muldiv_of (by decide +kernel) |
      exact owns_of (by decide +kernel) | exact plain_of (by decide +kernel) | exact tops_of (by decide +kernel) |
      exact mem_of (by decide +kernel) | exact clean_of (by decide +kernel) |
      exact unbuffered_of (by decide +kernel) | exact room_of (by decide +kernel) |
      exact serving_of (by decide +kernel) | exact sound_of (by decide +kernel) | exact accepts_of (by decide +kernel) |
      exact reads_of (by decide +kernel) | decide +kernel

/-- Requests with all supplies good and with VDD_IO bad; a request of the memory master port made while it was disabled, and
one made under a BASE; a host request to the external memory under EN 0 and EN 1. -/
theorem witness_PortsAndSupplies :
    (let s : State := { ported [{ id := 9, adr := 0, size := 4 }] [] [] with powerGood := 7 }
     s.readWait = [] ∧ s.poreset = false ∧ s.powerGood = 7 ∧ s.host.length < 8 ∧ (∀ r ∈ s.host, r.id ≤ s.hostId)) ∧
    ({ ported [] [] [] with powerGood := 6 } : State).powerGood ≠ 7 ∧
    (let r : MmReq := { mmreq true with base := none }
     let s : State := { ported [] [r] [] with powerGood := 7 }
     s.mode ≠ 0 ∧ s.standby = false ∧ s.fatal = false ∧ s.poreset = false ∧ s.powerGood = 7 ∧ s.mmWait = r :: [] ∧
     r.base = none ∧ r.who = .port .host 4 8) ∧
    (let r : MmReq := { mmreq true with base := some 3 }
     let o : MmOut := { req := { mmreq false with adr := 0x50001000 } }
     let s : State := { ported [] [r] ((List.range 15).map (fun y => (mmKey true y, o))) with powerGood := 7 }
     s.mode ≠ 0 ∧ s.powerGood = 7 ∧ s.mmWait = r :: [] ∧ r.base ≠ none ∧
     (∀ y, y < 15 → mhas s.mmOut (mmKey true y) = true) ∧ mhas s.mmOut (mmKey true 15) = false ∧
     r.external = 3 * 2 ^ 31 + 0x10000000) ∧
    (ported [] [] []).get (Adr.UC_STAT 0) Bits.UC_STAT_BUSY = 0 := by
    repeat' with_reducible apply And.intro
    all_goals first | exact ready_of (by decide +kernel) | exact issues_of (by decide +kernel) |
      exact branch_ready_of (by decide +kernel) | exact muldiv_of (by decide +kernel) |
      exact owns_of (by decide +kernel) | exact plain_of (by decide +kernel) | exact tops_of (by decide +kernel) |
      exact mem_of (by decide +kernel) | exact clean_of (by decide +kernel) |
      exact unbuffered_of (by decide +kernel) | exact room_of (by decide +kernel) |
      exact serving_of (by decide +kernel) | exact sound_of (by decide +kernel) | exact accepts_of (by decide +kernel) |
      exact reads_of (by decide +kernel) | decide +kernel

/-! ### Ill-formed terms, one for each check -/

theorem test_pick_16_ill_formed : (Instr.pick 0 16).wellFormed = false := by decide +kernel
theorem test_shli_32_ill_formed : (Instr.shli 0 32).wellFormed = false := by decide +kernel
theorem test_shri_32_ill_formed : (Instr.shri 0 32).wellFormed = false := by decide +kernel
theorem test_sari_32_ill_formed : (Instr.sari 0 32).wellFormed = false := by decide +kernel
theorem test_sext_9_ill_formed : (Instr.sext 0 9).wellFormed = false := by decide +kernel
theorem test_accq_64_ill_formed : (Instr.accq 0 64).wellFormed = false := by decide +kernel
theorem test_rdsr_0F_ill_formed : (Instr.rdsr 0 0x0F).wellFormed = false := by decide +kernel
theorem test_wrsr_60_ill_formed : (Instr.wrsr 0 0x60).wellFormed = false := by decide +kernel
theorem test_call_rel8_ill_formed : (Instr.call 0 (.rel8 4)).wellFormed = false := by decide +kernel
theorem test_bz_rel32_ill_formed : (Instr.bz 0 (.rel32 4)).wellFormed = false := by decide +kernel
theorem test_bnz_rel32_ill_formed : (Instr.bnz 0 (.rel32 4)).wellFormed = false := by decide +kernel
theorem test_bzA_rel32_ill_formed : (Instr.bzA 0 (.rel32 4)).wellFormed = false := by decide +kernel
theorem test_bnzA_rel32_ill_formed : (Instr.bnzA 0 (.rel32 4)).wellFormed = false := by decide +kernel
theorem test_lineFill_misaligned_ill_formed : (Instr.lineFill 0 4 (List.replicate 32 0) true).wellFormed = false := by
  decide +kernel
theorem test_lineFill_short_ill_formed : (Instr.lineFill 0 32 (List.replicate 31 0) true).wellFormed = false := by
  decide +kernel
theorem test_illegalOpcode_empty_ill_formed : (Instr.illegalOpcode 0 []).wellFormed = false := by decide +kernel
theorem test_illegalOpcode_six_ill_formed : (Instr.illegalOpcode 0 (List.replicate 6 0xFF)).wellFormed = false := by
  decide +kernel
theorem test_dbdescWrite_4095_ill_formed : (Instr.dbdescWrite .host 0xFFF 0).wellFormed = false := by decide +kernel
theorem test_addrFrameReturn_65_ill_formed :
    (Instr.addrFrameReturn 0 true 65 (List.replicate 65 ⟨0, 0, 0, 0⟩) 0).wellFormed = false := by decide +kernel
theorem test_returnSlotReceive_513_ill_formed :
    (Instr.returnSlotReceive 0 true ⟨0, true, true, false, List.replicate 513 0⟩).wellFormed = false := by
  decide +kernel
theorem test_quickCheck_short_ill_formed : (Instr.quickCheck 0 { check0 12 with fmax := [] }).wellFormed = false := by
  decide +kernel
theorem test_fullSweep_short_ill_formed : (Instr.fullSweep 0 { check0 12 with slack := [1, 1, 1] }).wellFormed = false := by
  decide +kernel
theorem test_pllLock_15_ill_formed : (Instr.pllLock 15).wellFormed = false := by decide +kernel
theorem test_pick_15_well_formed : (Instr.pick 0 15).wellFormed = true := by decide +kernel

end Sys2Proof.Tests
end

section
/-!
PROOFS. The shifts of R270, and the refusals of RDSR and WRSR of R250 and R252. Both rest on one account of how an
instruction raises at issue: what holds the engine is past, and the exception is pending at the boundary of R288.
-/

namespace Sys2Proof

open Machine

namespace Machine

/-! ### Raising at issue -/

/-- Rolling back does not look at what holds the engine. -/
@[simp] theorem Engine.rollback_hold (e : Engine) (h : Hold) :
    ({ e with hold := h } : Engine).rollback = { e.rollback with hold := h } := by
  unfold Engine.rollback
  dsimp only
  split <;> rfl

/-- `s'` is `s` once what holds engine `g` is past: the state in which an instruction's own checks run. -/
structure HoldPast (s s' : State) (g : Nat) : Prop where
  eng : s'.eng g = { s.eng g with hold := .none }
  set : ∀ e, s'.setEng g e = s.setEng g e
  psw : s'.psw g = s.psw g

/-- An instruction that raises with nothing in flight leaves only the pending exception (R288, R322). -/
theorem HoldPast.raise_eq {s s' : State} {g : Nat} (h : HoldPast s s' g) (hf : (s.eng g).flights = []) (x : Exc) :
    s'.raise g x = s.setEng g { (s.eng g).rollback with hold := .none, exc := some x } := by
  have hf' : ¬ (s'.eng g).flights ≠ [] := by
    rw [h.eng]
    exact not_not_intro hf
  unfold State.raise
  dsimp only
  rw [if_neg hf', h.eng, Engine.rollback_hold, h.set]

/-- An instruction of class X goes on at once with nothing in flight (R265). -/
theorem HoldPast.alone_eq {s s' : State} {g : Nat} (h : HoldPast s s' g) (hf : (s.eng g).flights = [])
    (body : State → State) : s'.alone g body = body s' := by
  unfold State.alone
  rw [if_neg]
  rw [h.eng]
  exact not_not_intro hf

/-- The hold that is past is nothing to the fetch of the instruction's bytes. -/
theorem HoldPast.fetchByte_eq {s s' : State} {g : Nat} (h : HoldPast s s' g) (a : Nat) :
    s'.fetchByte g a = s.fetchByte g a := by
  unfold State.fetchByte
  simp only [h.eng]

theorem HoldPast.atHand_eq {s s' : State} {g : Nat} (h : HoldPast s s' g) (a n : Nat) :
    s'.atHand g a n = s.atHand g a n := by
  unfold State.atHand
  simp only [h.fetchByte_eq]

theorem HoldPast.fetchFault_eq {s s' : State} {g : Nat} (h : HoldPast s s' g) (a n : Nat) :
    s'.fetchFault g a n = s.fetchFault g a n := by
  unfold State.fetchFault
  simp only [h.eng]
  rfl

theorem HoldPast.refl {s : State} {g : Nat} (h : (s.eng g).hold = .none) : HoldPast s s g :=
  ⟨by rw [← h], fun _ => rfl, rfl⟩

theorem holdPast_setEng (s : State) (g : Nat) : HoldPast s (s.setEng g { s.eng g with hold := .none }) g where
  eng := State.eng_setEng ..
  set := State.setEng_setEng s g _
  psw := by
    unfold State.psw State.gm
    simp only [State.eng_setEng]
    rfl

/-- The state that `issueWith` hands on. -/
theorem holdPast_issue (s : State) (g : Nat) :
    HoldPast s (if (s.eng g).hold == .none then s else s.modEng g (fun e => { e with hold := .none })) g := by
  split
  · exact .refl (by simp_all)
  · exact holdPast_setEng s g

/-- An illegal encoding raises illegal opcode, whatever its body would do (R262). -/
theorem State.issue_illegal {s : State} {g n : Nat} (barred : Bool) (body : State → State) (h : Issues s g n)
    (hf : (s.eng g).flights = []) :
    s.issue g n barred false body =
      s.setEng g { (s.eng g).rollback with hold := .none, exc := some (illegalAt (s.eng g)) } := by
  have hp := holdPast_issue s g
  have hslot : ¬ ((s.eng g).slot.isNone = true ∧ (s.eng g).arrived ≠ []) :=
    fun ⟨hn, ha⟩ => ha (h.noErr (by simpa using hn))
  unfold State.issue State.issueWith
  simp only [h.runs, Bool.not_true, Bool.false_eq_true, if_false, if_neg hslot, hp.fetchFault_eq, h.fetched, hp.atHand_eq,
    h.lines, Bool.not_false, true_or, if_true, hp.raise_eq hf]
  rfl

/-- An instruction whose operand byte is outside its values raises illegal opcode (R262). -/
theorem raises_illegal {c : Instr} {s : State} {g n : Nat} {barred legal : Bool} {body : State → State}
    (hc : exec c s = .next (s.issue g n barred legal body)) (hl : legal = false) (h : Issues s g n)
    (hf : (s.eng g).flights = []) : Raises c s g (illegalAt (s.eng g)) := by
  subst hl
  unfold Raises
  rw [hc, State.issue_illegal barred body h hf]

/-- A legal instruction whose own checks raise `x`. -/
theorem raises_of_body {c : Instr} {s : State} {g n : Nat} {legal : Bool} {body : State → State} {x : Exc}
    (hc : exec c s = .next (s.issue g n false legal body)) (hl : legal = true) (h : Issues s g n)
    (hf : (s.eng g).flights = []) (hb : ∀ s', HoldPast s s' g → body s' = s'.raise g x) : Raises c s g x := by
  subst hl
  obtain ⟨s', hrun, heng, hset, hs⟩ := s.issue_runs g n false body h (.inl rfl)
  have hp : HoldPast s s' g := by
    refine ⟨heng, hset, ?_⟩
    rcases hs with rfl | rfl
    · rfl
    · exact (holdPast_setEng s g).psw
  unfold Raises
  rw [hc, hrun, hb s' hp, hp.raise_eq hf]

/-! ### The shifts (R270) -/

section
variable {w : Nat} (a : BitVec w)

@[simp] theorem shlW_zero : shlW a 0 = (a, false) := rfl
@[simp] theorem shrW_zero : shrW a 0 = (a, false) := rfl
@[simp] theorem sarW_zero : sarW a 0 = (a, false) := rfl

theorem shlW_of_lt {k : Nat} (h0 : 1 ≤ k) (hk : k < w) : shlW a k = (a <<< k, a.getLsbD (w - k)) := by
  rw [shlW, if_neg (by omega), if_pos hk]

theorem shrW_of_lt {k : Nat} (h0 : 1 ≤ k) (hk : k < w) : shrW a k = (a >>> k, a.getLsbD (k - 1)) := by
  rw [shrW, if_neg (by omega), if_pos hk]

theorem sarW_of_lt {k : Nat} (h0 : 1 ≤ k) (hk : k < w) : sarW a k = (a.sshiftRight k, a.getLsbD (k - 1)) := by
  rw [sarW, if_neg (by omega), if_pos hk]

theorem shlW_of_ge {k : Nat} (h0 : 1 ≤ k) (hk : w ≤ k) : shlW a k = (0, false) := by
  rw [shlW, if_neg (by omega), if_neg (by omega)]

theorem shrW_of_ge {k : Nat} (h0 : 1 ≤ k) (hk : w ≤ k) : shrW a k = (0, false) := by
  rw [shrW, if_neg (by omega), if_neg (by omega)]

end

/-- SAR by the width or more leaves the sign in every bit and in C. -/
theorem sarW_of_ge (a : Word) {k : Nat} (hk : 32 ≤ k) :
    sarW a k = (if a.getLsbD 31 then 0xFFFFFFFF else 0, a.getLsbD 31) := by
  have hm : a.msb = a.getLsbD 31 := BitVec.msb_eq_getLsbD_last a
  have hfill : a.sshiftRight 32 = if a.getLsbD 31 then BitVec.allOnes 32 else 0 := by
    refine BitVec.eq_of_getLsbD_eq fun i hi => ?_
    rw [BitVec.getLsbD_sshiftRight, hm]
    cases a.getLsbD 31
    · simp [hi]
    · rw [if_pos rfl, BitVec.getLsbD_allOnes]
      simp [hi]
  rw [sarW, if_neg (by omega), if_neg (by omega), hfill, hm]
  rfl

/-- The count of SHL, SHR and SAR is n[5:0]. -/
theorem count6_eq (n : Word) : count6 n = (n.setWidth 6).toNat := by
  rw [count6, BitVec.toNat_setWidth]

section
variable {c : Instr} {s : State} {g : Eng} {a r : Word} {b : Bool} {sh : Word → Nat → Word × Bool}

/-- A shift by the top cell: one cell for two, and C. -/
theorem shift_runs {n : Word}
    (hc : exec c s = dataOp g s 1 true { dIn := 2, dOut := 1 } (on2 fun _ a b => fxC (sh a (count6 b))))
    (h : Ready s g 1 [n, a] [] 1 0) (hr : sh a (n.setWidth 6).toNat = (r, b)) :
    RunsTo c s g 1 2 0 [r] [] (some b) none false := by
  have hrun := dataOp_next c g s 1 _ _ [n, a] [] hc h rfl rfl
  simp only [on2, count6_eq, hr] at hrun
  exact hrun

/-- A shift by a second byte below 32: one cell for one, and C. -/
theorem shiftImm_runs {k : Nat}
    (hc : exec c s = dataOp g s 2 (decide (k < 32)) { dIn := 1, dOut := 1 } (on1 fun _ a => fxC (sh a k)))
    (hk : k < 32) (h : Ready s g 2 [a] [] 1 0) (hr : sh a k = (r, b)) :
    RunsTo c s g 2 1 0 [r] [] (some b) none false := by
  rw [decide_eq_true hk] at hc
  have hrun := dataOp_next c g s 2 _ _ [a] [] hc h rfl rfl
  simp only [on1, hr] at hrun
  exact hrun

end

/-! ### Special registers (R249, R250, R252) -/

theorem srReadRing_eq_none {k : Nat} (h : k = 0x0F ∨ (0x20 ≤ k ∧ k ≤ 0x3F) ∨ 0x60 ≤ k) : srReadRing k = none := by
  rw [srReadRing, if_neg (by omega), if_neg (by omega)]

theorem srReadRing_eq_zero {k : Nat} (h : k = 5 ∨ (0x10 ≤ k ∧ k ≤ 0x1F)) : srReadRing k = some 0 := by
  rw [srReadRing, if_pos h]

theorem srWriteRing_eq_none {k : Nat} (h : k = 0x0C ∨ k = 0x0D ∨ k = 0x0F ∨ (0x20 ≤ k ∧ k ≤ 0x3F) ∨ 0x60 ≤ k) :
    srWriteRing k = none := by
  rw [srWriteRing, if_neg (by omega), if_neg (by omega), if_neg (by omega)]

theorem srWriteRing_eq_zero {k : Nat}
    (h : (1 ≤ k ∧ k ≤ 5) ∨ (9 ≤ k ∧ k ≤ 0x0B) ∨ (0x10 ≤ k ∧ k ≤ 0x1F) ∨ (0x40 ≤ k ∧ k ≤ 0x5F)) :
    srWriteRing k = some 0 := by
  rw [srWriteRing, if_neg (by omega), if_neg (by omega), if_pos (by omega)]

/-- Words agree under the mask of GM, IPL and RING as numbers and as cells. -/
theorem bandN_psw_iff (v p : Word) :
    (bandN v.toNat 0x87030000 == bandN p.toNat 0x87030000) = true ↔ v &&& 0x87030000 = p &&& 0x87030000 := by
  have hmask : (0x87030000 : Word).toNat = 0x87030000 := by decide
  simp only [bandN, beq_iff_eq, ← BitVec.toNat_inj, BitVec.toNat_and, hmask]

/-- A PSW write of rings 1 to 3 keeps GM, IPL and RING when the masked cells agree (R252). -/
theorem State.pswKept_iff (s : State) (g : Nat) (v : Word) :
    s.pswKept g v = true ↔ v &&& 0x87030000 = s.psw g &&& 0x87030000 :=
  bandN_psw_iff v (s.psw g)

section
variable {s : State} {g : Eng} {n : BitVec 8} {r : Nat}

/-- RDSR of a register that only rings up to `r` read (R250). -/
theorem rdsr_raises_privilege (h : Issues s g 2) (hf : (s.eng g).flights = []) (hr : srReadRing n.toNat = some r)
    (hlt : r < (s.eng g).effRing) : Raises (.rdsr g n) s g { code := 5 } := by
  refine raises_of_body (c := .rdsr g n) rfl (by rw [hr]; rfl) h hf fun s' hp => ?_
  have hlt' : (srReadRing n.toNat).getD 3 < (s'.eng g).effRing := by rw [hr, hp.eng]; exact hlt
  rw [hp.alone_eq hf, if_pos hlt']
  rfl

/-- WRSR of a register that only rings up to `r` write (R250). -/
theorem wrsr_raises_privilege (h : Issues s g 2) (hf : (s.eng g).flights = []) (hr : srWriteRing n.toNat = some r)
    (hlt : r < (s.eng g).effRing) : Raises (.wrsr g n) s g { code := 5 } := by
  refine raises_of_body (c := .wrsr g n) rfl (by rw [hr]; rfl) h hf fun s' hp => ?_
  have hlt' : (srWriteRing n.toNat).getD 3 < (s'.eng g).effRing := by rw [hr, hp.eng]; exact hlt
  rw [hp.alone_eq hf, if_pos hlt']
  rfl

/-- WRSR of PSW outside ring 0 with a value that would change GM, IPL or RING (R252). -/
theorem wrsr_psw_raises_privilege {v : Word} (h : Issues s g 2) (hf : (s.eng g).flights = [])
    (he : 1 ≤ (s.eng g).effRing) (ht : Tops (s.eng g).arch.bank [v] [] 0 0)
    (hv : v &&& 0x87030000 ≠ s.psw g &&& 0x87030000) : Raises (.wrsr g 0) s g { code := 5 } := by
  refine raises_of_body (c := .wrsr g 0) rfl rfl h hf fun s' hp => ?_
  have hgo : (s'.eng g).arch.bank.check { dIn := 1 } = .go [v] [] := by
    rw [hp.eng]
    exact Bank.check_tops _ { dIn := 1 } [v] [] ht rfl rfl
  have hring : (s'.eng g).effRing ≠ 0 := by rw [hp.eng]; exact Nat.one_le_iff_ne_zero.mp he
  have hkept : s'.pswKept g v = false := by
    rw [Bool.eq_false_iff, ne_eq, State.pswKept_iff, hp.psw]
    exact hv
  rw [hp.alone_eq hf]
  split
  · rfl
  · simp [srExt, hgo, hring, hkept, excPrivilege]

end

end Machine

/-- Settles O4: each clause is one value of `shlW`, `shrW` or `sarW`, by the count's range. -/
theorem shiftsAndTheirCarry : Obligations.ShiftsAndTheirCarry := by
  intro s g a n
  refine ⟨fun h => ?_, fun k => ⟨fun h => ⟨fun h0 => ?_, fun h1 hk => ?_⟩, fun hi hf hk => ?_⟩⟩
  · intro k
    refine ⟨fun h0 => ?_, fun h1 hk => ?_, fun hk => ?_⟩
    · have hz : (n.setWidth 6).toNat = 0 := h0
      exact ⟨shift_runs (sh := shlW) rfl h (by rw [hz, shlW_zero]),
        shift_runs (sh := shrW) rfl h (by rw [hz, shrW_zero]), shift_runs (sh := sarW) rfl h (by rw [hz, sarW_zero])⟩
    · exact ⟨shift_runs rfl h (shlW_of_lt a h1 hk), shift_runs rfl h (shrW_of_lt a h1 hk),
        shift_runs rfl h (sarW_of_lt a h1 hk)⟩
    · have h1 : 1 ≤ k := by omega
      exact ⟨shift_runs rfl h (shlW_of_ge a h1 hk), shift_runs rfl h (shrW_of_ge a h1 hk),
        shift_runs rfl h (sarW_of_ge a hk)⟩
  · have hlt : k.toNat < 32 := by omega
    exact ⟨shiftImm_runs (sh := shlW) rfl hlt h (by rw [h0, shlW_zero]),
      shiftImm_runs (sh := shrW) rfl hlt h (by rw [h0, shrW_zero]),
      shiftImm_runs (sh := sarW) rfl hlt h (by rw [h0, sarW_zero])⟩
  · exact ⟨shiftImm_runs rfl hk h (shlW_of_lt a h1 hk), shiftImm_runs rfl hk h (shrW_of_lt a h1 hk),
      shiftImm_runs rfl hk h (sarW_of_lt a h1 hk)⟩
  · have hill : decide (k.toNat < 32) = false := decide_eq_false (by omega)
    exact ⟨raises_illegal (c := .shli g k) rfl hill hi hf, raises_illegal (c := .shri g k) rfl hill hi hf,
      raises_illegal (c := .sari g k) rfl hill hi hf⟩

/-- Settles O14: the number's rings refuse before the stack is looked at, but for a PSW write, whose cell decides. -/
theorem specialRegisterRefusals : Obligations.SpecialRegisterRefusals := by
  intro s g n h hf k priv
  refine ⟨fun hk => ?_, fun hk => ?_, fun he hk => ?_, fun he hk => ?_, fun he hk => ?_, fun v he ht hk hv => ?_⟩
  · exact raises_illegal (c := .rdsr g n) rfl (by rw [srReadRing_eq_none hk]; rfl) h hf
  · exact raises_illegal (c := .wrsr g n) rfl (by rw [srWriteRing_eq_none hk]; rfl) h hf
  · exact rdsr_raises_privilege h hf (srReadRing_eq_zero hk) he
  · exact wrsr_raises_privilege h hf (srWriteRing_eq_zero hk) he
  · have hr : srWriteRing n.toNat = some 1 := by rw [show n.toNat = 0x0E from hk]; rfl
    exact wrsr_raises_privilege h hf hr he
  · obtain rfl : n = 0 := BitVec.eq_of_toNat_eq hk
    exact wrsr_psw_raises_privilege h hf he ht hv

end Sys2Proof
end
